-- ==== Sys2Proof/Word.lean ====
section
/-! DEFINITION. The word types of the SpeakUp FSK modem core (SUMC-1). -/

namespace Sys2Proof

/-- An octet: a payload byte, an octet of a frame (45_frame_codec.md R210). -/
abbrev Byte := BitVec 8

/-- A 16-bit field: a sample (20_memory.md R64), a CRC (44_crc16.md R200), a symbol count (30_encoding.md R85). -/
abbrev Half := BitVec 16

/-- A 32-bit field: `DATA`, `RDATA`, a configuration register, a phase, a sample count (30_encoding.md R80, R81). -/
abbrev Data := BitVec 32

/-- A command word or a response word (30_encoding.md R80, R81). -/
abbrev CmdWord := BitVec 64

end Sys2Proof
end

