-- ==== Sys2Proof/Config.lean ====
section
/-! DEFINITION. What a build of the block fixes: the build parameters of 00_scope.md R8, their defaults and the
constraints of R9; and the one free value. -/

namespace Sys2Proof

/-- The build parameters of 00_scope.md R8, which a model takes as an argument, each with the default this hardware
takes. -/
structure Build where
  /-- `TXQ_N`, slots of the transmit symbol queue -/
  txqN : Nat := 32768
  /-- `RXQ_N`, slots of the received symbol queue -/
  rxqN : Nat := 16
  /-- `Q_ITEM_BITS`, width of a queue item -/
  qItemBits : Nat := 1
  /-- `HIST_N`, clock-recovery history depth -/
  histN : Nat := 5
  /-- `MAJ_W`, glitch-window length -/
  majW : Nat := 3
  /-- `MAX_FRAME_LEN`, receive frame buffer bytes, CRC included -/
  maxFrameLen : Nat := 1024
  /-- `TXBUF_LEN`, transmit staging buffer bytes -/
  txbufLen : Nat := 1022
  /-- `PEND_LEN`, pending-message buffer bytes -/
  pendLen : Nat := 1022
  /-- `PHASE_BITS`, phase accumulator width -/
  phaseBits : Nat := 32
  /-- `QTAB_BITS`, log2 of the quarter-wave table's entries -/
  qtabBits : Nat := 6
  /-- `SINE_AMPL`, amplitude the table is built from -/
  sineAmpl : Nat := 32767
  /-- `SAMPLE_BITS`, width of input and output samples -/
  sampleBits : Nat := 16
  /-- `CNT_BITS`, width of the demodulator's sample counter -/
  cntBits : Nat := 32
  /-- `HPF_B0` to `HPF_B3`, high-pass feed-forward coefficients -/
  hpfB0 : Int := 4645
  hpfB1 : Int := -13934
  hpfB2 : Int := 13934
  hpfB3 : Int := -4645
  /-- `HPF_A1` to `HPF_A3`, high-pass feedback coefficients -/
  hpfA1 : Int := -11836
  hpfA2 : Int := 7736
  hpfA3 : Int := -1199
  /-- `HPF_SHIFT`, high-pass scale factor as a shift -/
  hpfShift : Nat := 14
  /-- `ENV_SHIFT`, envelope smoother shift -/
  envShift : Nat := 3
  /-- `HI_ATK`, `HI_REL`, high-mark attack and release shifts -/
  hiAtk : Nat := 2
  hiRel : Nat := 9
  /-- `LO_ATK`, `LO_REL`, low-mark attack and release shifts -/
  loAtk : Nat := 2
  loRel : Nat := 9
  /-- `CRC_POLY`, the CRC generator polynomial (44_crc16.md R200) -/
  crcPoly : BitVec 16 := 0x1021
  /-- `CRC_INIT`, the CRC initial value -/
  crcInit : BitVec 16 := 0xFFFF
deriving DecidableEq, Repr

/-- The constraints of 00_scope.md R9 that a build must meet. The shifts are naturals, so at least 0. -/
def Build.valid (b : Build) : Bool :=
  decide (2 ≤ b.txqN) && decide (2 ≤ b.rxqN) && decide (1 ≤ b.histN) && decide (1 ≤ b.majW) &&
  decide (2 ≤ b.maxFrameLen) && decide (b.txbufLen ≤ b.maxFrameLen - 2) && decide (b.pendLen = b.maxFrameLen - 2) &&
  decide (1 ≤ b.qtabBits) && decide (b.qtabBits ≤ b.phaseBits - 2) &&
  decide (0 < b.sineAmpl) && decide (b.sineAmpl < 2 ^ (b.sampleBits - 1))

/-- FREE VALUE (notes/assumptions/19.md). The bit that a unit takes from a queue item of 2 or more. Only a build with
`Q_ITEM_BITS` above 1 can hold such an item, only a direct Q.PUT can store one, and no rule says which bit MD.GET_SAMPLE
keeps in `MD.curBit` or FAC.DECODE_PROCESS_SAMPLE hands to FC.RX_BIT then. Nothing constrains it. -/
opaque Config.wideItemBit : Nat → Bool

end Sys2Proof
end

