-- ==== Sys2Proof/Machine/Arith.lean ====
section
/-! DEFINITION. The arithmetic primitives of 00_scope.md R10. Pseudocode arithmetic is on exact integers; a value is cut
to a width only by `wrap` and `swrap`. `zext_N` of a field is its `toNat`, `sext_N` its `toInt`. -/

namespace Sys2Proof.Machine

/-- `asr(v, k) = floor(v / 2^k)` (00_scope.md R10). -/
def asr (v : Int) (k : Nat) : Int := v / (2 ^ k : Int)

/-- `a mod m`, the remainder in `[0, m)` also for a negative `a` (00_scope.md R10). -/
def imod (a : Int) (m : Nat) : Nat := (a % (m : Int)).toNat

/-- `sext_n(v)`: the field `v[n-1:0]` read as two's complement (00_scope.md R10). -/
def sext (n v : Nat) : Int :=
  if v % 2 ^ n < 2 ^ (n - 1) then ((v % 2 ^ n : Nat) : Int) else ((v % 2 ^ n : Nat) : Int) - 2 ^ n

/-- `wrap_32(v)`, and `swrap_32(v)` when the result is read as signed (00_scope.md R10). -/
def wrap32 (v : Int) : BitVec 32 := BitVec.ofInt 32 v

/-- A natural number as a 32-bit result, zero-extended (30_encoding.md R85). One that does not fit, which no rule speaks of,
keeps its low 32 bits (DESIGN CHOICE, notes/assumptions/20.md). -/
def zext32 (n : Nat) : BitVec 32 := BitVec.ofNat 32 n

/-- One bit as a 32-bit result. -/
def bit32 (b : Bool) : BitVec 32 := zext32 b.toNat

end Sys2Proof.Machine
end

