-- ==== Sys2Proof/Machine/Operands.lean ====
section
/-! DEFINITION. The fields of a command word (30_encoding.md R80) and every operand form (R85). -/

namespace Sys2Proof.Machine

/-- `cmd.unit = cmd[63:60]` -/
def cmdUnit (w : CmdWord) : BitVec 4 := w.extractLsb' 60 4
/-- `cmd.op = cmd[59:56]` -/
def cmdOp (w : CmdWord) : BitVec 4 := w.extractLsb' 56 4
/-- `cmd.sel = cmd[55:48]` -/
def cmdSel (w : CmdWord) : BitVec 8 := w.extractLsb' 48 8
/-- the reserved field `cmd[47:32]` -/
def cmdRsv (w : CmdWord) : BitVec 16 := w.extractLsb' 32 16
/-- `cmd.data = cmd[31:0]` -/
def cmdData (w : CmdWord) : BitVec 32 := w.extractLsb' 0 32

/-- A 1-bit operand (`bit`), `cmd.data[0]` (30_encoding.md R85). -/
def operandBit (d : Data) : Bool := d.getLsbD 0
/-- A byte operand, `cmd.data[7:0]`. -/
def operandByte (d : Data) : BitVec 8 := d.extractLsb' 0 8
/-- A 16-bit length, `cmd.data[15:0]`. -/
def operandHalf (d : Data) : BitVec 16 := d.extractLsb' 0 16

/-- An operand placed in `DATA`, the bits it does not fill zero. -/
def dataOfBit (b : Bool) : Data := bit32 b
def dataOfByte (b : BitVec 8) : Data := b.setWidth 32
def dataOfHalf (n : BitVec 16) : Data := n.setWidth 32

/-- A sample operand, `sext_16(cmd.data[15:0])`, with `SAMPLE_BITS` for 16 (20_memory.md R64, 00_scope.md R8; a width above
the 32 bits of `DATA` takes all of them, notes/assumptions/6.md). -/
def operandSample (b : Build) (d : Data) : Int := sext (min b.sampleBits 32) d.toNat

/-- A value as a queue item, its field of `Q_ITEM_BITS` bits (40_queue.md R100). -/
def Build.item (b : Build) (v : Nat) : Nat := v % 2 ^ b.qItemBits

/-- An item operand, `cmd.data[Q_ITEM_BITS-1:0]`, by default `cmd.data[0]` (40_queue.md R102). -/
def operandItem (b : Build) (d : Data) : Nat := Build.item b d.toNat

/-- A symbol stored as a queue item. -/
def symbolItem (b : Build) (v : Bool) : Nat := Build.item b v.toNat

/-- The bit a unit takes from a queue item: the item itself for 0 and 1, a free value for a wider item
(notes/assumptions/19.md). -/
def itemBit (v : Nat) : Bool := if v = 0 then false else if v = 1 then true else Config.wideItemBit v

end Sys2Proof.Machine
end

