-- ==== Sys2Proof/Syntax.lean ====
section
/-! DEFINITION. The commands of the block: one constructor per row of spec/opcode_table.json (30_encoding.md R83),
with the operands R85 gives each. `DATA` bits that a command ignores in every build are no part of it. How many bits of
`DATA` a sample or a queue item takes is a build parameter (00_scope.md R8, 40_queue.md R102), so those two operands are
`DATA` whole, and the command's meaning takes its field of it. -/

namespace Sys2Proof

/-- One command (30_encoding.md R83). A constructor's operands are the fields that the command reads. -/
inductive Instr where
  -- UNIT 0, the facade (46_facade.md)
  | facNop
  | facSetup
  | facEncodeMessage
  | facEncodeGetSample
  | facDecodeProcessSample (x : BitVec 32)
  | facDecodeGetMessage
  | facDecodeClearMessage
  | facTxbufClear
  | facTxbufPush (b : BitVec 8)
  | facRxmsgRead (i : BitVec 32)
  | facCfgWrite (k : BitVec 8) (v : BitVec 32)
  | facCfgRead (k : BitVec 8)
  -- UNIT 1, the modulator (43_modulator.md)
  | mdSetup
  | mdClear
  | mdSetPreamble (n : BitVec 16)
  | mdSetPostamble (n : BitVec 16)
  | mdAddPreamble
  | mdAddPostamble
  | mdAddSymbol (b : Bool)
  | mdGetSample
  -- UNIT 2, the demodulator (42_demodulator.md)
  | dmSetup
  | dmClear
  | dmProcessSample (x : BitVec 32)
  -- UNIT 3, clock recovery (41_clock_recovery.md)
  | crSetup
  | crClear
  | crTransition (t : BitVec 32)
  -- UNIT 4, the frame codec (45_frame_codec.md)
  | fcSetup
  | fcClear
  | fcSendFrameBytes
  | fcSendFrameBits
  | fcRxByte (b : BitVec 8)
  | fcRxBit (bit : Bool)
  -- UNIT 5, the CRC unit (44_crc16.md)
  | crcInit
  | crcUpdate (b : BitVec 8)
  | crcRead
  | crcTableRead (i : BitVec 8)
  -- UNIT 6, the transmit queue (40_queue.md)
  | txqCanPut
  | txqPut (item : BitVec 32)
  | txqCanGet
  | txqGet
  | txqClear
  | txqCount
  | txqNthFromPut (n : BitVec 32)
  | txqNthFromGet (n : BitVec 32)
  -- UNIT 7, the receive queue (40_queue.md)
  | rxqCanPut
  | rxqPut (item : BitVec 32)
  | rxqCanGet
  | rxqGet
  | rxqClear
  | rxqCount
  | rxqNthFromPut (n : BitVec 32)
  | rxqNthFromGet (n : BitVec 32)
deriving DecidableEq, Repr

end Sys2Proof
end

