-- ==== Sys2Proof/WellFormed.lean ====
section
/-! DEFINITION. Which commands are legal. The operand types already bound every field; what is left is the CFG index
(30_encoding.md R86, last item; 10_state.md R22). An ill-formed command is no stop: it answers `ILL = 1`
(60_exceptions.md R304). -/

namespace Sys2Proof

/-- The command is legal by 30_encoding.md R86: FAC.CFG_WRITE names an index 0 to 8, FAC.CFG_READ an index 0 to 9. -/
def Instr.wellFormed : Instr → Bool
  | .facCfgWrite k _ => decide (k.toNat < 9)
  | .facCfgRead k => decide (k.toNat < 10)
  | .facNop | .facSetup | .facEncodeMessage | .facEncodeGetSample | .facDecodeProcessSample _
  | .facDecodeGetMessage | .facDecodeClearMessage | .facTxbufClear | .facTxbufPush _ | .facRxmsgRead _
  | .mdSetup | .mdClear | .mdSetPreamble _ | .mdSetPostamble _ | .mdAddPreamble | .mdAddPostamble
  | .mdAddSymbol _ | .mdGetSample
  | .dmSetup | .dmClear | .dmProcessSample _
  | .crSetup | .crClear | .crTransition _
  | .fcSetup | .fcClear | .fcSendFrameBytes | .fcSendFrameBits | .fcRxByte _ | .fcRxBit _
  | .crcInit | .crcUpdate _ | .crcRead | .crcTableRead _
  | .txqCanPut | .txqPut _ | .txqCanGet | .txqGet | .txqClear | .txqCount | .txqNthFromPut _ | .txqNthFromGet _
  | .rxqCanPut | .rxqPut _ | .rxqCanGet | .rxqGet | .rxqClear | .rxqCount | .rxqNthFromPut _ | .rxqNthFromGet _ =>
    true

end Sys2Proof
end

