-- ==== Sys2Proof/Decode.lean ====
section
/-! DEFINITION. Decoding a command word (30_encoding.md R86, R88) and, after it, the encoder (R89). -/

namespace Sys2Proof

open Sys2Proof.Machine

/-- Why a word is no command (30_encoding.md R86). Each is answered with `ILL = 1`; none stops the machine. -/
inductive DecodeError where
  /-- `UNIT` is 8 to 15 -/
  | reservedUnit
  /-- `(UNIT, OP)` is no row of R83 -/
  | reservedOp
  /-- `cmd[47:32]` is not zero -/
  | reservedBits
  /-- `SEL` is not zero in a command that does not use it -/
  | selNotZero
deriving DecidableEq, Repr

/-- The rows of 30_encoding.md R83 for UNIT 0. -/
def decodeFac (op : Nat) (sel : BitVec 8) (d : Data) : Option Instr :=
  match op with
  | 0 => some .facNop
  | 1 => some .facSetup
  | 2 => some .facEncodeMessage
  | 3 => some .facEncodeGetSample
  | 4 => some (.facDecodeProcessSample d)
  | 5 => some .facDecodeGetMessage
  | 6 => some .facDecodeClearMessage
  | 7 => some .facTxbufClear
  | 8 => some (.facTxbufPush (operandByte d))
  | 9 => some (.facRxmsgRead d)
  | 10 => some (.facCfgWrite sel d)
  | 11 => some (.facCfgRead sel)
  | _ => none

/-- The rows of 30_encoding.md R83 for UNIT 1. -/
def decodeMd (op : Nat) (d : Data) : Option Instr :=
  match op with
  | 0 => some .mdSetup
  | 1 => some .mdClear
  | 2 => some (.mdSetPreamble (operandHalf d))
  | 3 => some (.mdSetPostamble (operandHalf d))
  | 4 => some .mdAddPreamble
  | 5 => some .mdAddPostamble
  | 6 => some (.mdAddSymbol (operandBit d))
  | 7 => some .mdGetSample
  | _ => none

/-- The rows of 30_encoding.md R83 for UNIT 2. -/
def decodeDm (op : Nat) (d : Data) : Option Instr :=
  match op with
  | 0 => some .dmSetup
  | 1 => some .dmClear
  | 2 => some (.dmProcessSample d)
  | _ => none

/-- The rows of 30_encoding.md R83 for UNIT 3. -/
def decodeCr (op : Nat) (d : Data) : Option Instr :=
  match op with
  | 0 => some .crSetup
  | 1 => some .crClear
  | 2 => some (.crTransition d)
  | _ => none

/-- The rows of 30_encoding.md R83 for UNIT 4. -/
def decodeFc (op : Nat) (d : Data) : Option Instr :=
  match op with
  | 0 => some .fcSetup
  | 1 => some .fcClear
  | 2 => some .fcSendFrameBytes
  | 3 => some .fcSendFrameBits
  | 4 => some (.fcRxByte (operandByte d))
  | 5 => some (.fcRxBit (operandBit d))
  | _ => none

/-- The rows of 30_encoding.md R83 for UNIT 5. -/
def decodeCrc (op : Nat) (d : Data) : Option Instr :=
  match op with
  | 0 => some .crcInit
  | 1 => some (.crcUpdate (operandByte d))
  | 2 => some .crcRead
  | 3 => some (.crcTableRead (operandByte d))
  | _ => none

/-- The rows of 30_encoding.md R83 for UNIT 6. -/
def decodeTxq (op : Nat) (d : Data) : Option Instr :=
  match op with
  | 0 => some .txqCanPut
  | 1 => some (.txqPut d)
  | 2 => some .txqCanGet
  | 3 => some .txqGet
  | 4 => some .txqClear
  | 5 => some .txqCount
  | 6 => some (.txqNthFromPut d)
  | 7 => some (.txqNthFromGet d)
  | _ => none

/-- The rows of 30_encoding.md R83 for UNIT 7. -/
def decodeRxq (op : Nat) (d : Data) : Option Instr :=
  match op with
  | 0 => some .rxqCanPut
  | 1 => some (.rxqPut d)
  | 2 => some .rxqCanGet
  | 3 => some .rxqGet
  | 4 => some .rxqClear
  | 5 => some .rxqCount
  | 6 => some (.rxqNthFromPut d)
  | 7 => some (.rxqNthFromGet d)
  | _ => none

/-- The table of 30_encoding.md R83: the row of a `(UNIT, OP)` pair. -/
def decodeRow (unit op : Nat) (sel : BitVec 8) (d : Data) : Option Instr :=
  match unit with
  | 0 => decodeFac op sel d
  | 1 => decodeMd op d
  | 2 => decodeDm op d
  | 3 => decodeCr op d
  | 4 => decodeFc op d
  | 5 => decodeCrc op d
  | 6 => decodeTxq op d
  | 7 => decodeRxq op d
  | _ => none

/-- `SEL` is used only by FAC.CFG_WRITE and FAC.CFG_READ (30_encoding.md R84). -/
def usesSel (unit op : Nat) : Bool := decide (unit = 0) && (decide (op = 10) || decide (op = 11))

/-- The decode procedure of 30_encoding.md R88, total on every 64-bit word. A CFG index is not tested here: R88 leaves
it to the command's own rule. -/
def decode (w : CmdWord) : Except DecodeError Instr :=
  if 8 ≤ (cmdUnit w).toNat then .error .reservedUnit
  else
    match decodeRow (cmdUnit w).toNat (cmdOp w).toNat (cmdSel w) (cmdData w) with
    | none => .error .reservedOp
    | some i =>
      if cmdRsv w ≠ 0 then .error .reservedBits
      else if cmdSel w ≠ 0 ∧ usesSel (cmdUnit w).toNat (cmdOp w).toNat = false then .error .selNotZero
      else .ok i

/-! ## The encoder -/

/-- A command word from its fields, `(UNIT << 60) | (OP << 56) | (SEL << 48) | DATA` (30_encoding.md R80, R89). -/
def cmdWord (unit op : BitVec 4) (sel : BitVec 8) (data : Data) : CmdWord :=
  unit ++ op ++ sel ++ (0#16) ++ data

/-- The word of a command: its row of 30_encoding.md R83, its operand in the bits R85 gives it, every other bit zero. -/
def encode : Instr → CmdWord
  | .facNop => cmdWord 0 0 0 0
  | .facSetup => cmdWord 0 1 0 0
  | .facEncodeMessage => cmdWord 0 2 0 0
  | .facEncodeGetSample => cmdWord 0 3 0 0
  | .facDecodeProcessSample x => cmdWord 0 4 0 x
  | .facDecodeGetMessage => cmdWord 0 5 0 0
  | .facDecodeClearMessage => cmdWord 0 6 0 0
  | .facTxbufClear => cmdWord 0 7 0 0
  | .facTxbufPush b => cmdWord 0 8 0 (dataOfByte b)
  | .facRxmsgRead i => cmdWord 0 9 0 i
  | .facCfgWrite k v => cmdWord 0 10 k v
  | .facCfgRead k => cmdWord 0 11 k 0
  | .mdSetup => cmdWord 1 0 0 0
  | .mdClear => cmdWord 1 1 0 0
  | .mdSetPreamble n => cmdWord 1 2 0 (dataOfHalf n)
  | .mdSetPostamble n => cmdWord 1 3 0 (dataOfHalf n)
  | .mdAddPreamble => cmdWord 1 4 0 0
  | .mdAddPostamble => cmdWord 1 5 0 0
  | .mdAddSymbol b => cmdWord 1 6 0 (dataOfBit b)
  | .mdGetSample => cmdWord 1 7 0 0
  | .dmSetup => cmdWord 2 0 0 0
  | .dmClear => cmdWord 2 1 0 0
  | .dmProcessSample x => cmdWord 2 2 0 x
  | .crSetup => cmdWord 3 0 0 0
  | .crClear => cmdWord 3 1 0 0
  | .crTransition t => cmdWord 3 2 0 t
  | .fcSetup => cmdWord 4 0 0 0
  | .fcClear => cmdWord 4 1 0 0
  | .fcSendFrameBytes => cmdWord 4 2 0 0
  | .fcSendFrameBits => cmdWord 4 3 0 0
  | .fcRxByte b => cmdWord 4 4 0 (dataOfByte b)
  | .fcRxBit b => cmdWord 4 5 0 (dataOfBit b)
  | .crcInit => cmdWord 5 0 0 0
  | .crcUpdate b => cmdWord 5 1 0 (dataOfByte b)
  | .crcRead => cmdWord 5 2 0 0
  | .crcTableRead i => cmdWord 5 3 0 (dataOfByte i)
  | .txqCanPut => cmdWord 6 0 0 0
  | .txqPut d => cmdWord 6 1 0 d
  | .txqCanGet => cmdWord 6 2 0 0
  | .txqGet => cmdWord 6 3 0 0
  | .txqClear => cmdWord 6 4 0 0
  | .txqCount => cmdWord 6 5 0 0
  | .txqNthFromPut n => cmdWord 6 6 0 n
  | .txqNthFromGet n => cmdWord 6 7 0 n
  | .rxqCanPut => cmdWord 7 0 0 0
  | .rxqPut d => cmdWord 7 1 0 d
  | .rxqCanGet => cmdWord 7 2 0 0
  | .rxqGet => cmdWord 7 3 0 0
  | .rxqClear => cmdWord 7 4 0 0
  | .rxqCount => cmdWord 7 5 0 0
  | .rxqNthFromPut n => cmdWord 7 6 0 n
  | .rxqNthFromGet n => cmdWord 7 7 0 n

/-- The bits of `DATA` that the decoder keeps as a command's operand. -/
def dataMask : Instr → Data
  | .facRxmsgRead _ | .facCfgWrite _ _ | .crTransition _ | .txqNthFromPut _ | .txqNthFromGet _
  | .rxqNthFromPut _ | .rxqNthFromGet _
  | .facDecodeProcessSample _ | .dmProcessSample _ | .txqPut _ | .rxqPut _ => 0xFFFFFFFF
  | .mdSetPreamble _ | .mdSetPostamble _ => 0x0000FFFF
  | .facTxbufPush _ | .fcRxByte _ | .crcUpdate _ | .crcTableRead _ => 0x000000FF
  | .mdAddSymbol _ | .fcRxBit _ => 0x00000001
  | .facNop | .facSetup | .facEncodeMessage | .facEncodeGetSample | .facDecodeGetMessage | .facDecodeClearMessage
  | .facTxbufClear | .facCfgRead _
  | .mdSetup | .mdClear | .mdAddPreamble | .mdAddPostamble | .mdGetSample
  | .dmSetup | .dmClear | .crSetup | .crClear | .fcSetup | .fcClear | .fcSendFrameBytes | .fcSendFrameBits
  | .crcInit | .crcRead
  | .txqCanPut | .txqCanGet | .txqGet | .txqClear | .txqCount
  | .rxqCanPut | .rxqCanGet | .rxqGet | .rxqClear | .rxqCount => 0

/-- The lowest `n` bits of `DATA`. -/
def lowBits (n : Nat) : Data := BitVec.ofNat 32 (2 ^ n - 1)

/-- The bits of `DATA` that a command reads in a build `b` (30_encoding.md R83, R85; 40_queue.md R102); the others
are ignored. R64, R83 and R85 write `DATA[15:0]` for a sample; that its width is `SAMPLE_BITS` is DEDUCED
(notes/assumptions/6.md). -/
def readMask (b : Build) (i : Instr) : Data :=
  match i with
  | .facDecodeProcessSample _ | .dmProcessSample _ => lowBits b.sampleBits
  | .txqPut _ | .rxqPut _ => lowBits b.qItemBits
  | _ => dataMask i

/-- What this decoder reads from a command whose bits are `w`, `nbits` of them given and every bit above zero. A command
is one 64-bit word, bit 0 its least significant (30_encoding.md R80). -/
def decodeTableWord (nbits w : Nat) : Option Instr :=
  match decode (BitVec.ofNat 64 (w % 2 ^ nbits)) with
  | .ok i => some i
  | .error _ => none

end Sys2Proof
end

