-- ==== Sys2Proof/Machine/State.lean ====
section
/-! DEFINITION. The state of the block as plain data (10_state.md R20 to R32; 20_memory.md R60; 60_exceptions.md R301,
R303, R305, R306; 70_reset_and_hazards.md R330, R331), the reasons a step stops, and the state after reset. -/

namespace Sys2Proof.Machine

/-- The two command ports (60_exceptions.md R305): the tick port T and the application port A. -/
inductive Port where
  | tick
  | app
deriving DecidableEq, Repr

/-- The event codes of 60_exceptions.md R301, in its order (code 1 to code 8). -/
inductive Event where
  | frameOk
  | crcMismatch
  | oversize
  | msgDropped
  | rxqDrop
  | txOverflow
  | crWrap
  | crReject
deriving DecidableEq, Repr

/-- The reset input (70_reset_and_hazards.md R331; notes/assumptions/3.md): not asserted, asserted while no command is
in progress, asserted while the next command is in progress (93_implementation_defined.md U13). -/
inductive ResetInput where
  | off
  | betweenCommands
  | duringCommand
deriving DecidableEq, Repr

/-- Why the machine stops with a fault (60_exceptions.md R303). Each carries the command word and the port that issued
it, and each is raised before the command writes anything. Safe: the spec gives the case no meaning, and a stop proves
nothing about what the hardware does there. -/
inductive Fault where
  /-- code 1: raised by TXQ.PUT and RXQ.PUT on a full queue (40_queue.md R102). Safe. -/
  | queuePutFull (cmd : BitVec 64) (port : Port)
  /-- code 2: raised by TXQ.GET and RXQ.GET on an empty queue (40_queue.md R104). Safe. -/
  | queueGetEmpty (cmd : BitVec 64) (port : Port)
deriving DecidableEq, Repr

/-- Why the model declines to give a step a meaning. -/
inductive Refusal where
  /-- raised by an arm of `exec` whose command has no meaning yet; no arm uses it. Safe. -/
  | notModelled (mnemonic : String)
  /-- raised by `step` when the build breaks 00_scope.md R9, "else the block is not defined by this spec"
  (93_implementation_defined.md U9: a model should refuse such a build). Safe. -/
  | buildOutsideSpec
deriving DecidableEq, Repr

/-- An internal memory (20_memory.md R60): its listed (index, element) pairs. Memories of bytes are lists of
`Host.Cell`. `Memory.wf` states the one canonical form. -/
abbrev Memory (α : Type) := List (Nat × α)

/-- What an element that nothing has written reads as: 0. 10_state.md R34 says that no command can observe it (DESIGN
CHOICE, notes/assumptions/4.md). -/
def Memory.stale {α : Type} [Inhabited α] : α := default

/-- The canonical form: indexes strictly rising, no entry equal to what an unlisted index reads as. -/
def Memory.wf {α : Type} [DecidableEq α] [Inhabited α] (m : Memory α) : Bool :=
  decide (m.Pairwise fun a b => a.1 < b.1) && m.all fun c => decide (c.2 ≠ (Memory.stale : α))

/-- The configuration registers CFG0 to CFG8 (10_state.md R21), each 32 bits. CFG9 is computed (R24). -/
structure CfgRegs where
  sampleRate : BitVec 32
  symbolRate : BitVec 32
  tone0 : BitVec 32
  tone1 : BitVec 32
  mode : BitVec 32
  preambleLen : BitVec 32
  postambleLen : BitVec 32
  crTol : BitVec 32
  crCw : BitVec 32
deriving DecidableEq, Repr

/-- One bounded queue (10_state.md R25). An item is a natural number below `2 ^ Q_ITEM_BITS`. -/
structure QueueRegs where
  put : Nat
  get : Nat
  slot : Memory Nat
deriving DecidableEq, Repr

/-- One record of `CR.hist` (10_state.md R26; 41_clock_recovery.md R120): a transition's sample count and the interval
since the previous transition. -/
structure Transition where
  t : BitVec 32
  iv : BitVec 32
deriving DecidableEq, Repr

/-- The clock-recovery registers (10_state.md R26). `edge = none` is the spec's -1, Uninitialized. -/
structure CrRegs where
  sps : Nat
  tolLo : BitVec 8
  tolHi : BitVec 8
  cwLo : BitVec 8
  cwHi : BitVec 8
  edge : Option Nat
  lastValid : Bool
  lastT : BitVec 32
  hist : List Transition
  spsEst : BitVec 32
deriving DecidableEq, Repr

/-- The demodulator registers (10_state.md R27). `win` is oldest first; `x1` to `x3` are samples of `SAMPLE_BITS` bits and
`cnt` has `CNT_BITS` bits (00_scope.md R8), so they are integers in their range. -/
structure DmRegs where
  man : Bool
  x1 : Int
  x2 : Int
  x3 : Int
  y1 : BitVec 32
  y2 : BitVec 32
  y3 : BitVec 32
  env : Nat
  hi : Nat
  lo : Nat
  win : List Bool
  level : Bool
  cnt : Nat
deriving DecidableEq, Repr

/-- The modulator registers (10_state.md R28). `phase` has `PHASE_BITS` bits. -/
structure MdRegs where
  sps : Nat
  half : Nat
  inc0 : BitVec 32
  inc1 : BitVec 32
  man : Bool
  phase : Nat
  curInc : BitVec 32
  active : Bool
  symPos : Nat
  curBit : Bool
  txOverflow : Bool
deriving DecidableEq, Repr

/-- The frame-codec registers (10_state.md R30). -/
structure FcRegs where
  crcBE : Bool
  buf : List Host.Cell
  pos : Nat
  rxCrc : BitVec 16
  inEsc : Bool
  discard : Bool
  sr : BitVec 8
  acc : BitVec 8
  nbits : Nat
  ones : Nat
deriving DecidableEq, Repr

/-- The facade registers (10_state.md R31). -/
structure FacRegs where
  txbuf : List Host.Cell
  txLen : Nat
  pendValid : Bool
  pendLen : Nat
  pend : List Host.Cell
  cfgErr : Bool
deriving DecidableEq, Repr

/-- One command port (60_exceptions.md R305, R306): the command words the host issues on it, next first, and the
response words returned on it, oldest first (notes/assumptions/1.md, notes/assumptions/10.md). -/
structure PortState where
  pending : List (BitVec 64)
  responses : List (BitVec 64)
deriving DecidableEq, Repr

/-- The whole machine: the build's parameters, the block's registers and memories (10_state.md R20), its outputs, its
two ports and its reset input. -/
structure State where
  /-- the build parameters (00_scope.md R8); no step changes them -/
  build : Build
  /-- CFG0 to CFG8 (10_state.md R21) -/
  cfg : CfgRegs
  /-- TXQ (10_state.md R25) -/
  txq : QueueRegs
  /-- RXQ (10_state.md R25) -/
  rxq : QueueRegs
  /-- clock recovery (10_state.md R26) -/
  cr : CrRegs
  /-- demodulator (10_state.md R27) -/
  dm : DmRegs
  /-- modulator (10_state.md R28) -/
  md : MdRegs
  /-- `CRC.acc` (10_state.md R29) -/
  crcAcc : BitVec 16
  /-- frame codec (10_state.md R30) -/
  fc : FcRegs
  /-- facade (10_state.md R31) -/
  fac : FacRegs
  /-- `BYTE_OUT` (20_memory.md R66), oldest first -/
  byteOut : List (BitVec 8)
  /-- the event trace (60_exceptions.md R301), oldest first -/
  trace : List Event
  /-- the tick port -/
  portT : PortState
  /-- the application port -/
  portA : PortState
  /-- `PORT_ORDER` (93_implementation_defined.md U3): who goes first at each coming contention; when it is used up, the
  hardware's own order, the tick port first (notes/assumptions/2.md) -/
  portOrder : List Port
  /-- the reset input (70_reset_and_hazards.md R331) -/
  resetIn : ResetInput
  /-- the port whose command is executing (the model's own, notes/assumptions/7.md) -/
  serving : Port
  /-- the command word that is executing (the model's own, notes/assumptions/7.md) -/
  cmdReg : BitVec 64
deriving DecidableEq, Repr

/-- The reset values of CFG0 to CFG8 (10_state.md R21). -/
def CfgRegs.reset : CfgRegs where
  sampleRate := 8000
  symbolRate := 100
  tone0 := 1000
  tone1 := 2000
  mode := 0x3
  preambleLen := 20
  postambleLen := 5
  crTol := 0x6E5A
  crCw := 0x4B19

def QueueRegs.reset : QueueRegs where
  put := 0
  get := 0
  slot := []

def CrRegs.reset : CrRegs where
  sps := 80
  tolLo := 90
  tolHi := 110
  cwLo := 25
  cwHi := 75
  edge := none
  lastValid := false
  lastT := 0
  hist := []
  spsEst := 80

/-- `majW` is `MAJ_W`, the length of the glitch window (10_state.md R27). -/
def DmRegs.reset (majW : Nat) : DmRegs where
  man := true
  x1 := 0
  x2 := 0
  x3 := 0
  y1 := 0
  y2 := 0
  y3 := 0
  env := 0
  hi := 0
  lo := 0
  win := List.replicate majW false
  level := false
  cnt := 0

def MdRegs.reset : MdRegs where
  sps := 80
  half := 40
  inc0 := 0x20000000
  inc1 := 0x40000000
  man := true
  phase := 0
  curInc := 0
  active := false
  symPos := 0
  curBit := false
  txOverflow := false

def FcRegs.reset : FcRegs where
  crcBE := true
  buf := []
  pos := 0
  rxCrc := 0xFFFF
  inEsc := false
  discard := false
  sr := 0
  acc := 0
  nbits := 0
  ones := 0

def FacRegs.reset : FacRegs where
  txbuf := []
  txLen := 0
  pendValid := false
  pendLen := 0
  pend := []
  cfgErr := false

/-- A port with no command and no response. -/
def PortState.idle : PortState where
  pending := []
  responses := []

/-- The reset state of 70_reset_and_hazards.md R330 for a build `b`. `CRC.acc` is `CRC_INIT`, where R330 writes its default:
DEDUCED from R332 and 44_crc16.md R202 (notes/assumptions/13.md). -/
def State.resetOf (b : Build) : State where
  build := b
  cfg := CfgRegs.reset
  txq := QueueRegs.reset
  rxq := QueueRegs.reset
  cr := CrRegs.reset
  dm := DmRegs.reset b.majW
  md := MdRegs.reset
  crcAcc := b.crcInit
  fc := FcRegs.reset
  fac := FacRegs.reset
  byteOut := []
  trace := []
  portT := PortState.idle
  portA := PortState.idle
  portOrder := []
  resetIn := .off
  serving := .tick
  cmdReg := 0

/-- The machine right after reset (70_reset_and_hazards.md R330), with the default build of 00_scope.md R8. The block
waits for a command (R331). -/
def State.reset : State := State.resetOf {}

end Sys2Proof.Machine
end

