-- ==== Sys2Proof/Machine/Flags.lean ====
section
/-! DEFINITION. The response format (30_encoding.md R81) and the result-flag layouts of the commands: CR.TRANSITION
(41_clock_recovery.md R123), DM.PROCESS_SAMPLE (42_demodulator.md R142), FC.RX_BYTE and FC.RX_BIT (45_frame_codec.md
R217, R221), FAC.DECODE_PROCESS_SAMPLE (46_facade.md R255), STATUS (10_state.md R24). -/

namespace Sys2Proof.Machine

/-- A command's response (00_scope.md R12): the value bit, the illegal bit and the data word. -/
structure Resp where
  v : Bool
  ill : Bool
  rdata : BitVec 32
deriving DecidableEq, Repr

/-- `respond(V, D)`; with `V = 0` the data word is 0 (00_scope.md R12, 30_encoding.md R81). -/
def respond (v : Bool) (d : BitVec 32) : Resp where
  v := v
  ill := false
  rdata := if v then d else 0

/-- `respond_illegal()` (30_encoding.md R86). -/
def respondIllegal : Resp where
  v := false
  ill := true
  rdata := 0

/-- The 64-bit response word: V bit 63, ILL bit 62, zeros 61:32, RDATA 31:0 (30_encoding.md R81). -/
def Resp.word (r : Resp) : BitVec 64 := BitVec.ofBool r.v ++ BitVec.ofBool r.ill ++ (0#30) ++ r.rdata

/-- Bits as a 32-bit word, the first one bit 0. -/
def bitsNat : List Bool → Nat
  | [] => 0
  | b :: bs => b.toNat + 2 * bitsNat bs

/-- Bits as a 32-bit result, the first one `RDATA[0]`. -/
def bitsData (bs : List Bool) : BitVec 32 := zext32 (bitsNat bs)

/-- What one transition told (41_clock_recovery.md R123): the decision, whether it was accepted, and whether
`event(CR_REJECT)` is recorded. -/
structure CrResult where
  d : Bool := false
  acc : Bool := false
  rejected : Bool := false
deriving DecidableEq, Repr

/-- `{acc, d}` (41_clock_recovery.md R123). -/
def CrResult.rdata (r : CrResult) : BitVec 32 := bitsData [r.d, r.acc]

/-- The result flags of one sample (42_demodulator.md R142). -/
structure DmFlags where
  pushed : Bool := false
  sym : Bool := false
  dropped : Bool := false
  trans : Bool := false
  level : Bool := false
deriving DecidableEq, Repr

/-- `{LEVEL, TRANS, DROPPED, SYM, PUSHED}` (42_demodulator.md R142). -/
def DmFlags.rdata (f : DmFlags) : BitVec 32 := bitsData [f.pushed, f.sym, f.dropped, f.trans, f.level]

/-- The result flags of the receive parser, bit 0 to bit 7 (45_frame_codec.md R217, R221). -/
structure RxFlags where
  frameOk : Bool := false
  crcMismatch : Bool := false
  oversize : Bool := false
  msgDropped : Bool := false
  stored : Bool := false
  flagSeen : Bool := false
  destuffed : Bool := false
  byteDispatched : Bool := false
deriving DecidableEq, Repr

/-- Bits 0 to 7 of FC.RX_BYTE's and FC.RX_BIT's result (45_frame_codec.md R217, R221). -/
def RxFlags.rdata (f : RxFlags) : BitVec 32 :=
  bitsData [f.frameOk, f.crcMismatch, f.oversize, f.msgDropped, f.stored, f.flagSeen, f.destuffed, f.byteDispatched]

/-- The result flags of FAC.DECODE_PROCESS_SAMPLE, bit 0 to bit 6 (46_facade.md R255). -/
structure DecFlags where
  pushed : Bool := false
  sym : Bool := false
  dropped : Bool := false
  frameOk : Bool := false
  msgDropped : Bool := false
  crcMismatch : Bool := false
  oversize : Bool := false
deriving DecidableEq, Repr

/-- Bits 0 to 7 of FAC.DECODE_PROCESS_SAMPLE's result; bit 7 is `FAC.pendValid` after the command (46_facade.md R255). -/
def DecFlags.rdata (f : DecFlags) (pending : Bool) : BitVec 32 :=
  bitsData [f.pushed, f.sym, f.dropped, f.frameOk, f.msgDropped, f.crcMismatch, f.oversize, pending]

/-- The flags one drained bit adds (46_facade.md R255, the loop's body). -/
def DecFlags.add (f : DecFlags) (q : RxFlags) : DecFlags :=
  { f with
    frameOk := f.frameOk || q.frameOk
    msgDropped := f.msgDropped || q.msgDropped
    crcMismatch := f.crcMismatch || q.crcMismatch
    oversize := f.oversize || q.oversize }

/-- The STATUS word from its four fields (10_state.md R24). -/
def statusWord (msgPending txBusy txOverflow cfgErr : Bool) : BitVec 32 :=
  bitsData [msgPending, txBusy, txOverflow, cfgErr]

/-- The code of an event (60_exceptions.md R301). -/
def Event.code : Event → Nat
  | .frameOk => 1
  | .crcMismatch => 2
  | .oversize => 3
  | .msgDropped => 4
  | .rxqDrop => 5
  | .txOverflow => 6
  | .crWrap => 7
  | .crReject => 8

/-- The code of a fault (60_exceptions.md R303). -/
def Fault.code : Fault → Nat
  | .queuePutFull _ _ => 1
  | .queueGetEmpty _ _ => 2

end Sys2Proof.Machine
end

