-- ==== Sys2Proof/Machine/Ops.lean ====
section
/-! DEFINITION. The named operations over memories, registers and ports that every command is written with: internal
memories (20_memory.md R60), register updates (00_scope.md R11), events, outputs and responses (R12, R13), the
configuration registers (10_state.md R21 to R24), the queues (40_queue.md R100), serving a port (20_memory.md R69,
60_exceptions.md R306) and the reset input (70_reset_and_hazards.md R331). The block takes no exception (60_exceptions.md
R300), so there is no exception entry among them; the answer to an illegal command is `respondIllegal` (R304). -/

namespace Sys2Proof.Machine

/-! ## Internal memories -/

/-- `MemRead(m, i)` (00_scope.md R11). -/
def Memory.read {α : Type} [Inhabited α] : Memory α → Nat → α
  | [], _ => Memory.stale
  | (k, v) :: m, i => if k = i then v else Memory.read m i

/-- `MemWrite(m, i, v)` (00_scope.md R11), keeping the canonical form. -/
def Memory.write {α : Type} [DecidableEq α] [Inhabited α] : Memory α → Nat → α → Memory α
  | [], i, v => if v = Memory.stale then [] else [(i, v)]
  | (k, x) :: m, i, v =>
    if i < k then (if v = Memory.stale then (k, x) :: m else (i, v) :: (k, x) :: m)
    else if i = k then (if v = Memory.stale then m else (i, v) :: m)
    else (k, x) :: Memory.write m i v

/-- `n` elements copied one by one: element `i` of `src` to element `i` of `dst`, for `i` from 0 (46_facade.md R263). -/
def Memory.copy {α : Type} [DecidableEq α] [Inhabited α] (src : Memory α) : Nat → Memory α → Memory α
  | 0, dst => dst
  | n + 1, dst => Memory.write (Memory.copy src n dst) n (Memory.read src n)

/-- The first `n` elements of a memory, in order. -/
def Memory.firstN {α : Type} [Inhabited α] (m : Memory α) (n : Nat) : List α := (List.range n).map (Memory.read m)

/-! ## Register updates -/

def State.setCfg (s : State) (c : CfgRegs) : State := { s with cfg := c }
def State.setTxq (s : State) (q : QueueRegs) : State := { s with txq := q }
def State.setRxq (s : State) (q : QueueRegs) : State := { s with rxq := q }
def State.setCr (s : State) (c : CrRegs) : State := { s with cr := c }
def State.setDm (s : State) (d : DmRegs) : State := { s with dm := d }
def State.setMd (s : State) (m : MdRegs) : State := { s with md := m }
def State.setCrcAcc (s : State) (c : BitVec 16) : State := { s with crcAcc := c }
def State.setFc (s : State) (f : FcRegs) : State := { s with fc := f }
def State.setFac (s : State) (f : FacRegs) : State := { s with fac := f }

/-- `event(E)`: the code goes to the end of the trace (00_scope.md R13, 60_exceptions.md R301). -/
def State.event (s : State) (e : Event) : State := { s with trace := s.trace ++ [e] }

/-- `event(E)` when `c` holds. -/
def State.eventIf (s : State) (c : Bool) (e : Event) : State := { s with trace := s.trace ++ (if c then [e] else []) }

/-- `emit(BYTE_OUT, o)` for each octet in order (00_scope.md R13, 20_memory.md R66). -/
def State.emit (s : State) (os : List (BitVec 8)) : State := { s with byteOut := s.byteOut ++ os }

/-- `FAC.cfgErr <- e`. -/
def State.setCfgErr (s : State) (e : Bool) : State := { s with fac := { s.fac with cfgErr := e } }

/-! ## Ports -/

/-- A port's state. -/
def State.port (s : State) : Port → PortState
  | .tick => s.portT
  | .app => s.portA

/-- A port's new state. -/
def State.setPort (s : State) (p : Port) (ps : PortState) : State :=
  { s with
    portT := match p with
      | .tick => ps
      | .app => s.portT
    portA := match p with
      | .tick => s.portA
      | .app => ps }

/-- The response goes to the port that issued the command (30_encoding.md R81, 60_exceptions.md R306). -/
def State.reply (s : State) (r : Resp) : State :=
  s.setPort s.serving { s.port s.serving with responses := (s.port s.serving).responses ++ [r.word] }

/-- A command ends: its response is returned and the block goes on. -/
def finish (r : State × Resp) : Host.Outcome State Fault Refusal := .next (r.1.reply r.2)

/-- The port that is served next, and the port order that is left (20_memory.md R69, 60_exceptions.md R306). With one
command pending there is no choice. With commands on both ports `portOrder` decides; when it is used up, the tick port
goes first. -/
def State.nextPort (s : State) : Option (Port × List Port) :=
  match s.portT.pending, s.portA.pending with
  | [], [] => none
  | _ :: _, [] => some (.tick, s.portOrder)
  | [], _ :: _ => some (.app, s.portOrder)
  | _ :: _, _ :: _ => some (s.portOrder.headD .tick, s.portOrder.tail)

/-- The block takes the next command of port `p`: it leaves the port, and the block keeps its word and its port until
the response (60_exceptions.md R303, R306). -/
def State.accept (s : State) (p : Port) (order : List Port) : State :=
  { s.setPort p { s.port p with pending := (s.port p).pending.tail } with
    portOrder := order
    serving := p
    cmdReg := (s.port p).pending.headD 0 }

/-- The reset event (70_reset_and_hazards.md R331): the state of R330. The host's side of the two ports is not the
block's: commands not yet taken and responses already returned stay (notes/assumptions/3.md). -/
def State.applyReset (s : State) : State :=
  { State.resetOf s.build with
    portT := s.portT
    portA := s.portA
    portOrder := s.portOrder }

/-- The command in progress when reset is applied: it is taken and gets no response (93_implementation_defined.md U13). -/
def State.abandon (s : State) : State :=
  match s.nextPort with
  | none => s
  | some (p, order) => s.accept p order

/-! ## Configuration registers -/

/-- `CFG[k]` for `k` 0 to 8 (10_state.md R21). -/
def CfgRegs.read (c : CfgRegs) (k : Nat) : BitVec 32 :=
  match k with
  | 0 => c.sampleRate
  | 1 => c.symbolRate
  | 2 => c.tone0
  | 3 => c.tone1
  | 4 => c.mode
  | 5 => c.preambleLen
  | 6 => c.postambleLen
  | 7 => c.crTol
  | 8 => c.crCw
  | _ => 0

/-- `MASK[k]` (10_state.md R22). -/
def cfgMask (k : Nat) : BitVec 32 :=
  match k with
  | 0 | 1 | 2 | 3 => 0xFFFFFFFF
  | 4 => 0x00000003
  | 5 | 6 | 7 | 8 => 0x0000FFFF
  | _ => 0

/-- `CFG[k] <- v` for `k` 0 to 8; there is no other register. -/
def CfgRegs.write (c : CfgRegs) (k : Nat) (v : BitVec 32) : CfgRegs :=
  match k with
  | 0 => { c with sampleRate := v }
  | 1 => { c with symbolRate := v }
  | 2 => { c with tone0 := v }
  | 3 => { c with tone1 := v }
  | 4 => { c with mode := v }
  | 5 => { c with preambleLen := v }
  | 6 => { c with postambleLen := v }
  | 7 => { c with crTol := v }
  | 8 => { c with crCw := v }
  | _ => c

/-- `CFG[4].MANCHESTER`, bit 0 (10_state.md R21). -/
def CfgRegs.manchester (c : CfgRegs) : Bool := c.mode.getLsbD 0
/-- `CFG[4].CRC_BE`, bit 1. -/
def CfgRegs.crcBigEndian (c : CfgRegs) : Bool := c.mode.getLsbD 1
/-- `CFG[5][15:0]`, the preamble length. -/
def CfgRegs.preamble (c : CfgRegs) : Nat := (c.preambleLen.extractLsb' 0 16).toNat
/-- `CFG[6][15:0]`, the postamble length. -/
def CfgRegs.postamble (c : CfgRegs) : Nat := (c.postambleLen.extractLsb' 0 16).toNat

/-- `floor(CFG[0] / CFG[1])` (10_state.md R23). -/
def CfgRegs.sps (c : CfgRegs) : Nat := c.sampleRate.toNat / c.symbolRate.toNat

/-- `cfgValid()` (10_state.md R23). -/
def CfgRegs.valid (c : CfgRegs) : Bool :=
  decide (1 ≤ c.sampleRate.toNat) && decide (1 ≤ c.symbolRate.toNat) && decide (2 ≤ c.sps) && decide (c.sps ≤ 65535)

/-! ## Queues -/

/-- `canPut(Q)` (40_queue.md R100). -/
def QueueRegs.canPut (n : Nat) (q : QueueRegs) : Bool := decide ((q.put + 1) % n ≠ q.get)

/-- `canGet(Q)` (40_queue.md R100). -/
def QueueRegs.canGet (q : QueueRegs) : Bool := decide (q.put ≠ q.get)

/-- `count(Q)` (40_queue.md R100). -/
def QueueRegs.count (n : Nat) (q : QueueRegs) : Nat := imod ((q.put : Int) - q.get) n

/-- The item at the tail is written and `put` advances (40_queue.md R102, after its test). -/
def QueueRegs.push (n : Nat) (q : QueueRegs) (item : Nat) : QueueRegs :=
  { q with slot := Memory.write q.slot q.put item, put := (q.put + 1) % n }

/-- The item at the head (40_queue.md R104). -/
def QueueRegs.head (q : QueueRegs) : Nat := Memory.read q.slot q.get

/-- `get` advances (40_queue.md R104, after its test). -/
def QueueRegs.pop (n : Nat) (q : QueueRegs) : QueueRegs := { q with get := (q.get + 1) % n }

/-- Both cursors go to 0 (40_queue.md R105). -/
def QueueRegs.cleared (q : QueueRegs) : QueueRegs := { q with put := 0, get := 0 }

/-- TXQ.CLEAR as a call. -/
def State.clearTxq (s : State) : State := s.setTxq s.txq.cleared
/-- RXQ.CLEAR as a call. -/
def State.clearRxq (s : State) : State := s.setRxq s.rxq.cleared

/-- STATUS, computed when read (10_state.md R24). -/
def State.status (s : State) : BitVec 32 :=
  statusWord s.fac.pendValid (s.md.active || decide (0 < s.txq.count s.build.txqN)) s.md.txOverflow s.fac.cfgErr

end Sys2Proof.Machine
end

