-- ==== Sys2Proof/Machine/Tables.lean ====
section
/-! DEFINITION. The two read-only tables (10_state.md R32): the quarter-wave sine ROM (43_modulator.md R170) and the CRC
table (44_crc16.md R200), with the functions that read them. -/

namespace Sys2Proof.Machine

/-- How the cosine of the angle `π * m / 2^n` compares with the fraction `a / b`, `b > 0`, decided exactly in integers. The
cosine of a multiple of `π` is 1 or -1. Any other angle `θ` is doubled: by `2 cos² θ = 1 + cos 2θ`, a cosine and a fraction
that are both at least 0 compare as `cos 2θ` and `(2a² - b²) / b²` do, and two negative ones the other way round. -/
def compareCos : Nat → Nat → Int → Int → Ordering
  | 0, m, a, b => if m % 2 = 0 then compare b a else compare (-b) a
  | n + 1, m, a, b =>
    let k := m % 2 ^ (n + 2)
    if k ≤ 2 ^ n ∨ 3 * 2 ^ n ≤ k then
      if a < 0 then .gt else compareCos n m (2 * a * a - b * b) (b * b)
    else if 0 ≤ a then .lt
    else (compareCos n m (2 * a * a - b * b) (b * b)).swap

/-- `a / b ≤ sin((pi/2) * (i + 0.5) / 2^qtab)`, the sine at the centre of step `i` of a quarter wave of `2^qtab` steps
(43_modulator.md R170). The sine is the cosine of the rest of the quarter turn. -/
def sineAtLeast (qtab i : Nat) (a b : Int) : Bool :=
  decide (compareCos (qtab + 2) (2 ^ (qtab + 1) - (2 * i + 1)) a b ≠ .lt)

/-- The largest number below `acc + 2^j` of those that keep the bits of `acc` and satisfy `p`, bit by bit from bit `j - 1`
down, for a `p` that holds up to some number and not above it. -/
def largest (p : Nat → Bool) : Nat → Nat → Nat
  | 0, acc => acc
  | j + 1, acc => largest p j (if p (acc + 2 ^ j) then acc + 2 ^ j else acc)

/-- `SINE_Q[i] = floor(SINE_AMPL * sin((pi/2) * (i + 0.5) / 2^QTAB_BITS) + 0.5)` (43_modulator.md R170): the largest `k` with
`(2k - 1) / (2 * SINE_AMPL)` at most the sine. An entry above 16 bits, which only a `SINE_AMPL` above 65535 gives, is not cut
(DESIGN CHOICE, notes/assumptions/6.md). -/
def sineQ (b : Build) (i : Nat) : Nat :=
  largest (fun k => sineAtLeast b.qtabBits i (2 * k - 1) (2 * b.sineAmpl)) (b.sineAmpl.log2 + 1) 0

/-- `SINE(p)`: the quadrant in the top two of the `PHASE_BITS` bits of the phase, the index in the next `QTAB_BITS`
(43_modulator.md R170). -/
def sine (b : Build) (p : Nat) : Int :=
  let q := p / 2 ^ (b.phaseBits - 2) % 4
  let idx := p / 2 ^ (b.phaseBits - 2 - b.qtabBits) % 2 ^ b.qtabBits
  let last := 2 ^ b.qtabBits - 1
  if q = 0 then sineQ b idx
  else if q = 1 then sineQ b (last - idx)
  else if q = 2 then -(sineQ b idx : Int)
  else -(sineQ b (last - idx) : Int)

/-- `inc(f, Fs) = wrap_32(floor(f * 2^32 / Fs))`, the tuning word (43_modulator.md R171, which writes 32 whatever
`PHASE_BITS` is). -/
def tuningWord (f fs : BitVec 32) : BitVec 32 := BitVec.ofNat 32 (f.toNat * 2 ^ 32 / fs.toNat)

/-- One turn of the loop of 44_crc16.md R200: shift left, XOR the polynomial when bit 15 was set. -/
def crcShift (poly c : BitVec 16) : BitVec 16 := if c.getLsbD 15 then (c <<< 1) ^^^ poly else c <<< 1

/-- `k` turns of that loop. -/
def crcShifts (poly : BitVec 16) : Nat → BitVec 16 → BitVec 16
  | 0, c => c
  | k + 1, c => crcShifts poly k (crcShift poly c)

/-- `CRC_T[i]` (44_crc16.md R200). -/
def crcTable (poly : BitVec 16) (i : BitVec 8) : BitVec 16 := crcShifts poly 8 (i.setWidth 16 <<< 8)

/-- `crcUpd(c, b)` (44_crc16.md R201). -/
def crcUpd (poly c : BitVec 16) (b : BitVec 8) : BitVec 16 :=
  (c <<< 8) ^^^ crcTable poly (c.extractLsb' 8 8 ^^^ b)

/-- The update folded over bytes from a start value; `crcOf(bytes)` from `CRC_INIT` (44_crc16.md R201). -/
def crcFold (poly : BitVec 16) (c : BitVec 16) (bytes : List (BitVec 8)) : BitVec 16 := bytes.foldl (crcUpd poly) c

end Sys2Proof.Machine
end

