-- ==== Sys2Proof/Machine/Crc.lean ====
section
/-! DEFINITION. The commands of the CRC unit, UNIT 5 (44_crc16.md R202 to R205). The frame codec's accumulators are its
own (10_state.md R29). -/

namespace Sys2Proof.Machine

/-- CRC.INIT (44_crc16.md R202). -/
def execCrcInit (s : State) : Host.Outcome State Fault Refusal :=
  finish (s.setCrcAcc s.build.crcInit, respond true 0)

/-- CRC.UPDATE (44_crc16.md R203). -/
def execCrcUpdate (b : BitVec 8) (s : State) : Host.Outcome State Fault Refusal :=
  finish (s.setCrcAcc (crcUpd s.build.crcPoly s.crcAcc b),
    respond true ((crcUpd s.build.crcPoly s.crcAcc b).setWidth 32))

/-- CRC.READ (44_crc16.md R204). -/
def execCrcRead (s : State) : Host.Outcome State Fault Refusal := finish (s, respond true (s.crcAcc.setWidth 32))

/-- CRC.TABLE_READ (44_crc16.md R205). -/
def execCrcTableRead (i : BitVec 8) (s : State) : Host.Outcome State Fault Refusal :=
  finish (s, respond true ((crcTable s.build.crcPoly i).setWidth 32))

end Sys2Proof.Machine
end

