-- ==== Sys2Proof/Machine/ClockRecovery.lean ====
section
/-! DEFINITION. Clock recovery, UNIT 3 (41_clock_recovery.md). The functions on `CrRegs` are rules R120 to R128; the
shared bodies are also what `call CR.<OP>` runs. -/

namespace Sys2Proof.Machine

/-- `pos(t)` against the edge `e` (41_clock_recovery.md R120). -/
def CrRegs.pos (c : CrRegs) (e : Nat) (t : BitVec 32) : Nat := imod ((t.toNat : Int) - e) c.sps

/-- `inTol(iv)` (41_clock_recovery.md R120). -/
def CrRegs.inTol (c : CrRegs) (iv : BitVec 32) : Bool :=
  decide (c.tolLo.toNat * c.sps ≤ 100 * iv.toNat) && decide (100 * iv.toNat ≤ c.tolHi.toNat * c.sps)

/-- `inCentre(p)` (41_clock_recovery.md R120). -/
def CrRegs.inCentre (c : CrRegs) (p : Nat) : Bool :=
  decide (c.cwLo.toNat * c.sps ≤ 100 * p) && decide (100 * p ≤ c.cwHi.toNat * c.sps)

/-- The registers after CR.CLEAR (41_clock_recovery.md R122). -/
def CrRegs.cleared (c : CrRegs) : CrRegs :=
  { c with edge := none, lastValid := false, lastT := 0, hist := [], spsEst := zext32 c.sps }

/-- The configuration CR.SETUP loads (41_clock_recovery.md R121). -/
def CrRegs.configure (g : CfgRegs) (c : CrRegs) : CrRegs :=
  { c with
    sps := g.sps
    tolLo := g.crTol.extractLsb' 0 8
    tolHi := g.crTol.extractLsb' 8 8
    cwLo := g.crCw.extractLsb' 0 8
    cwHi := g.crCw.extractLsb' 8 8 }

/-- `seed(t, iv)`: the edge it sets (41_clock_recovery.md R125). -/
def CrRegs.seedEdge (c : CrRegs) (t iv : BitVec 32) : Nat := imod ((t.toNat : Int) - (iv.toNat / 2 : Nat)) c.sps

/-- `push(t, iv)` on a history of depth `n` (41_clock_recovery.md R126). -/
def pushHist (n : Nat) (h : List Transition) (r : Transition) : List Transition :=
  if n < (h ++ [r]).length then (h ++ [r]).drop 1 else h ++ [r]

/-- `mco`, the mean centre offset of the history against the edge `e` (41_clock_recovery.md R127). -/
def CrRegs.meanOffset (n : Nat) (c : CrRegs) (e : Nat) : Nat := (c.hist.map fun r => c.pos e r.t).sum / n

/-- `recompute()` with the edge `e` before it (41_clock_recovery.md R127). -/
def CrRegs.recompute (n : Nat) (c : CrRegs) (e : Nat) : CrRegs :=
  { c with
    spsEst := zext32 ((c.hist.map fun r => r.iv.toNat).sum / n)
    edge := some (imod ((e : Int) + c.meanOffset n e - (c.sps / 2 : Nat)) c.sps) }

/-- Step 3 of 41_clock_recovery.md R123 for an accepted transition: seed if there is no edge, push, and recompute when
the history is full. The edge that `recompute` starts from is the one `seed` has just made sure of. -/
def CrRegs.acceptTransition (n : Nat) (c : CrRegs) (t iv : BitVec 32) : CrRegs :=
  let e := c.edge.getD (c.seedEdge t iv)
  let c1 := { c with edge := some e, hist := pushHist n c.hist ⟨t, iv⟩ }
  if c1.hist.length = n then c1.recompute n e else c1

/-- `decide(t)` (41_clock_recovery.md R128). -/
def CrRegs.decides (c : CrRegs) (t : BitVec 32) : Bool :=
  match c.edge with
  | none => false
  | some e => c.inCentre (c.pos e t)

/-- CR.TRANSITION on the registers (41_clock_recovery.md R123). -/
def CrRegs.transition (n : Nat) (c : CrRegs) (t : BitVec 32) : CrRegs × CrResult :=
  if c.lastValid then
    let iv := t - c.lastT
    let c1 := { c with lastT := t }
    let acc := c1.inTol iv
    let c2 := if acc then c1.acceptTransition n t iv else c1
    (c2, { d := c2.decides t, acc := acc, rejected := !acc })
  else ({ c with lastValid := true, lastT := t }, {})

/-- CR.CLEAR (41_clock_recovery.md R122). -/
def crClear (s : State) : State × Resp := (s.setCr s.cr.cleared, respond true 0)

/-- CR.SETUP (41_clock_recovery.md R121). -/
def crSetup (s : State) : State × Resp :=
  if s.cfg.valid then
    ((crClear ((s.setCr (s.cr.configure s.cfg)).setCfgErr false)).1, respond true 0)
  else (s.setCfgErr true, respond false 0)

/-- CR.TRANSITION as a call: the block after it and what it told (41_clock_recovery.md R123). -/
def crTransition (t : BitVec 32) (s : State) : State × CrResult :=
  let r := s.cr.transition s.build.histN t
  ((s.setCr r.1).eventIf r.2.rejected .crReject, r.2)

/-! ## The commands of UNIT 3 -/

/-- CR.SETUP (41_clock_recovery.md R121). -/
def execCrSetup (s : State) : Host.Outcome State Fault Refusal := finish (crSetup s)
/-- CR.CLEAR (41_clock_recovery.md R122). -/
def execCrClear (s : State) : Host.Outcome State Fault Refusal := finish (crClear s)
/-- CR.TRANSITION (41_clock_recovery.md R123). -/
def execCrTransition (t : BitVec 32) (s : State) : Host.Outcome State Fault Refusal :=
  finish ((crTransition t s).1, respond true (crTransition t s).2.rdata)

end Sys2Proof.Machine
end

