-- ==== Sys2Proof/Machine/Demodulator.lean ====
section
/-! DEFINITION. The demodulator, UNIT 2 (42_demodulator.md). The functions on `DmRegs` are the steps R143 to R149 of the
per-sample pipeline; the shared bodies are also what `call DM.<OP>` runs. -/

namespace Sys2Proof.Machine

/-- The registers DM.CLEAR zeroes (42_demodulator.md R141); `majW` is `MAJ_W`. -/
def DmRegs.cleared (majW : Nat) (d : DmRegs) : DmRegs :=
  { d with
    x1 := 0, x2 := 0, x3 := 0, y1 := 0, y2 := 0, y3 := 0
    env := 0, hi := 0, lo := 0
    win := List.replicate majW false
    level := false
    cnt := 0 }

/-- DM.CLEAR (42_demodulator.md R141). -/
def dmClear (s : State) : State × Resp :=
  ((crClear (s.setDm (s.dm.cleared s.build.majW))).1.clearRxq, respond true 0)

/-- DM.SETUP (42_demodulator.md R140). -/
def dmSetup (s : State) : State × Resp :=
  if s.cfg.valid then
    ((dmClear (crSetup (s.setDm { s.dm with man := s.cfg.manchester })).1).1.setCfgErr false, respond true 0)
  else (s.setCfgErr true, respond false 0)

/-- `wrap_CNT_BITS(DM.cnt + 1)` (42_demodulator.md R143). -/
def nextCount (cntBits c : Nat) : Nat := (c + 1) % 2 ^ cntBits

/-- `count()` (42_demodulator.md R143): the counter advances; when it wraps to 0, CR.CLEAR and `event(CR_WRAP)`. -/
def dmCount (s : State) : State :=
  let c := nextCount s.build.cntBits s.dm.cnt
  let s1 := s.setDm { s.dm with cnt := c }
  if c = 0 then (crClear s1).1.event .crWrap else s1

/-- `acc` of the high-pass filter, an exact integer (42_demodulator.md R144). -/
def DmRegs.hpfAcc (b : Build) (d : DmRegs) (x : Int) : Int :=
  b.hpfB0 * x + b.hpfB1 * d.x1 + b.hpfB2 * d.x2 + b.hpfB3 * d.x3
    - b.hpfA1 * d.y1.toInt - b.hpfA2 * d.y2.toInt - b.hpfA3 * d.y3.toInt

/-- `hpf(x)`: the registers after it; the output is the new `y1` (42_demodulator.md R144). -/
def DmRegs.hpf (b : Build) (d : DmRegs) (x : Int) : DmRegs :=
  { d with
    x3 := d.x2, x2 := d.x1, x1 := x
    y3 := d.y2, y2 := d.y1, y1 := wrap32 (asr (d.hpfAcc b x) b.hpfShift) }

/-- A value moved toward a target by a `1/2^k` fraction of the distance, `v + asr(target - v, k)`
(42_demodulator.md R145 to R147). -/
def approach (v target k : Nat) : Nat := ((v : Int) + asr ((target : Int) - v) k).toNat

/-- A value moved down toward a target not above it, `v - asr(v - target, k)` (42_demodulator.md R146, R147). -/
def recede (v target k : Nat) : Nat := ((v : Int) - asr ((v : Int) - target) k).toNat

/-- `envelope(y)`, where `y` is the filter's output in `y1` (42_demodulator.md R145). -/
def DmRegs.envelope (b : Build) (d : DmRegs) : DmRegs :=
  { d with env := approach d.env d.y1.toInt.natAbs b.envShift }

/-- The high mark (42_demodulator.md R146). -/
def DmRegs.highMark (b : Build) (d : DmRegs) : DmRegs :=
  { d with hi := if d.hi < d.env then approach d.hi d.env b.hiAtk else recede d.hi d.env b.hiRel }

/-- The low mark (42_demodulator.md R147). -/
def DmRegs.lowMark (b : Build) (d : DmRegs) : DmRegs :=
  { d with lo := if d.env < d.lo then recede d.lo d.env b.loAtk else approach d.lo d.env b.loRel }

/-- `slice()` (42_demodulator.md R148). -/
def DmRegs.slice (d : DmRegs) : Bool := decide (d.hi + d.lo < 2 * d.env)

/-- `window(inst)`: the registers after it and whether the accepted level flipped (42_demodulator.md R149). The window
is oldest first, so the newest is its last; all agree exactly when all equal the newest. -/
def DmRegs.window (d : DmRegs) (inst : Bool) : DmRegs × Bool :=
  let w := d.win.drop 1 ++ [inst]
  if (w.all fun v => decide (v = inst)) ∧ inst ≠ d.level then ({ d with win := w, level := inst }, true)
  else ({ d with win := w }, false)

/-- The filter, envelope and mark steps of one sample (42_demodulator.md R144 to R147). -/
def DmRegs.measure (b : Build) (d : DmRegs) (x : Int) : DmRegs :=
  (((d.hpf b x).envelope b).highMark b).lowMark b

/-- `onTransition()`: the block after it, and PUSHED, SYM, DROPPED (42_demodulator.md R150). CR.TRANSITION takes a sample count
of 32 bits, and of a wider counter its low ones (notes/assumptions/5.md). -/
def dmOnTransition (s : State) : State × DmFlags :=
  let r := crTransition (zext32 s.dm.cnt) s
  let s1 := r.1
  if r.2.d then
    let sym := xor s1.dm.level s1.dm.man
    if s1.rxq.canPut s1.build.rxqN then
      (s1.setRxq (s1.rxq.push s1.build.rxqN (symbolItem s1.build sym)), { pushed := true, sym := sym })
    else (s1.event .rxqDrop, { sym := sym, dropped := true })
  else (s1, {})

/-- DM.PROCESS_SAMPLE as a call on the sample `x`: the block after it and its result flags (42_demodulator.md R142). -/
def dmProcess (x : Int) (s : State) : State × DmFlags :=
  let s1 := dmCount s
  let s2 := s1.setDm (s1.dm.measure s1.build x)
  let w := s2.dm.window s2.dm.slice
  let s3 := s2.setDm w.1
  if w.2 then
    let r := dmOnTransition s3
    (r.1, { r.2 with trans := true, level := r.1.dm.level })
  else (s3, { level := s3.dm.level })

/-! ## The commands of UNIT 2 -/

/-- DM.SETUP (42_demodulator.md R140). -/
def execDmSetup (s : State) : Host.Outcome State Fault Refusal := finish (dmSetup s)
/-- DM.CLEAR (42_demodulator.md R141). -/
def execDmClear (s : State) : Host.Outcome State Fault Refusal := finish (dmClear s)
/-- DM.PROCESS_SAMPLE (42_demodulator.md R142). -/
def execDmProcessSample (x : BitVec 32) (s : State) : Host.Outcome State Fault Refusal :=
  let r := dmProcess (operandSample s.build x) s
  finish (r.1, respond true r.2.rdata)

end Sys2Proof.Machine
end

