-- ==== Sys2Proof/Machine/Modulator.lean ====
section
/-! DEFINITION. The modulator, UNIT 1 (43_modulator.md). The shared bodies are also what `call MD.<OP>` runs
(00_scope.md R12). -/

namespace Sys2Proof.Machine

/-- The generator's registers after MD.CLEAR (43_modulator.md R173). -/
def MdRegs.cleared (m : MdRegs) : MdRegs :=
  { m with phase := 0, curInc := 0, active := false, symPos := 0, curBit := false, txOverflow := false }

/-- MD.CLEAR (43_modulator.md R173). -/
def mdClear (s : State) : State × Resp := ((s.setMd s.md.cleared).clearTxq, respond true 0)

/-- The configuration MD.SETUP loads (43_modulator.md R172). -/
def MdRegs.configure (c : CfgRegs) (m : MdRegs) : MdRegs :=
  { m with
    sps := c.sps
    half := c.sps / 2
    inc0 := tuningWord c.tone0 c.sampleRate
    inc1 := tuningWord c.tone1 c.sampleRate
    man := c.manchester }

/-- MD.SETUP (43_modulator.md R172). -/
def mdSetup (s : State) : State × Resp :=
  if s.cfg.valid then
    ((mdClear ((s.setMd (s.md.configure s.cfg)).setCfgErr false)).1, respond true 0)
  else (s.setCfgErr true, respond false 0)

/-- MD.SET_PREAMBLE (43_modulator.md R174). -/
def mdSetPreamble (n : BitVec 16) (s : State) : State × Resp :=
  (s.setCfg (s.cfg.write 5 (n.setWidth 32)), respond true 0)

/-- MD.SET_POSTAMBLE (43_modulator.md R175). -/
def mdSetPostamble (n : BitVec 16) (s : State) : State × Resp :=
  (s.setCfg (s.cfg.write 6 (n.setWidth 32)), respond true 0)

/-- MD.ADD_SYMBOL (43_modulator.md R176). -/
def mdAddSymbol (b : Bool) (s : State) : State × Resp :=
  if s.txq.canPut s.build.txqN then (s.setTxq (s.txq.push s.build.txqN (symbolItem s.build b)), respond true 0)
  else ((s.setMd { s.md with txOverflow := true }).event .txOverflow, respond false 0)

/-- `call MD.ADD_SYMBOL` for each symbol in order, and how many were queued. -/
def mdAddSymbols : List Bool → State → State × Nat
  | [], s => (s, 0)
  | b :: bs, s =>
    let r := mdAddSymbol b s
    let q := mdAddSymbols bs r.1
    (q.1, r.2.v.toNat + q.2)

/-- The symbols of a preamble of length `n`: 1, 0, 1, 0, ... (43_modulator.md R177). -/
def preambleSymbols (n : Nat) : List Bool := (List.range n).map fun i => decide (i % 2 = 0)

/-- The symbols of a postamble of length `n`: all 0 (43_modulator.md R178). -/
def postambleSymbols (n : Nat) : List Bool := List.replicate n false

/-- A symbol run queued whole or not: `respond(k = n ? 1 : 0, k = n ? k : 0)` (43_modulator.md R177, R178). -/
def mdAddRun (bs : List Bool) (s : State) : State × Resp :=
  let r := mdAddSymbols bs s
  (r.1, respond (decide (r.2 = bs.length)) (zext32 r.2))

/-- MD.ADD_PREAMBLE (43_modulator.md R177). -/
def mdAddPreamble (s : State) : State × Resp := mdAddRun (preambleSymbols s.cfg.preamble) s

/-- MD.ADD_POSTAMBLE (43_modulator.md R178). -/
def mdAddPostamble (s : State) : State × Resp := mdAddRun (postambleSymbols s.cfg.postamble) s

/-- The generator takes the item `b` from TXQ (43_modulator.md R179, its first step). -/
def MdRegs.load (m : MdRegs) (b : Nat) : MdRegs :=
  { m with curBit := itemBit b, active := true, symPos := 0, curInc := if b = 1 then m.inc1 else m.inc0 }

/-- `manchesterSwitch()` (43_modulator.md R180). -/
def MdRegs.manchesterSwitch (m : MdRegs) : MdRegs :=
  if m.man ∧ m.symPos = m.half then { m with curInc := if m.curBit then m.inc0 else m.inc1 } else m

/-- `wrap_32(phase + inc)` (43_modulator.md R179) in a phase register of `PHASE_BITS` bits (10_state.md R28). R179 writes 32
whatever `PHASE_BITS` is; that a narrower register keeps the low bits is a DESIGN CHOICE (notes/assumptions/6.md). -/
def nextPhase (b : Build) (phase : Nat) (inc : BitVec 32) : Nat := (phase + inc.toNat) % 2 ^ 32 % 2 ^ b.phaseBits

/-- The phase and the position advance by one sample (43_modulator.md R179, its last steps). -/
def MdRegs.advance (b : Build) (m : MdRegs) : MdRegs :=
  { m with
    phase := nextPhase b m.phase m.curInc
    symPos := m.symPos + 1
    active := if m.symPos + 1 = m.sps then false else m.active }

/-- One sample of a generator that has a symbol (43_modulator.md R179). -/
def mdEmitSample (s : State) : State × Resp :=
  (s.setMd (s.md.manchesterSwitch.advance s.build), respond true (wrap32 (sine s.build s.md.manchesterSwitch.phase)))

/-- MD.GET_SAMPLE (43_modulator.md R179). -/
def mdGetSample (s : State) : State × Resp :=
  if s.md.active then mdEmitSample s
  else if s.txq.canGet then
    mdEmitSample ((s.setTxq (s.txq.pop s.build.txqN)).setMd (s.md.load s.txq.head))
  else (s, respond false 0)

/-! ## The commands of UNIT 1 -/

/-- MD.SETUP (43_modulator.md R172). -/
def execMdSetup (s : State) : Host.Outcome State Fault Refusal := finish (mdSetup s)
/-- MD.CLEAR (43_modulator.md R173). -/
def execMdClear (s : State) : Host.Outcome State Fault Refusal := finish (mdClear s)
/-- MD.SET_PREAMBLE (43_modulator.md R174). -/
def execMdSetPreamble (n : BitVec 16) (s : State) : Host.Outcome State Fault Refusal := finish (mdSetPreamble n s)
/-- MD.SET_POSTAMBLE (43_modulator.md R175). -/
def execMdSetPostamble (n : BitVec 16) (s : State) : Host.Outcome State Fault Refusal := finish (mdSetPostamble n s)
/-- MD.ADD_PREAMBLE (43_modulator.md R177). -/
def execMdAddPreamble (s : State) : Host.Outcome State Fault Refusal := finish (mdAddPreamble s)
/-- MD.ADD_POSTAMBLE (43_modulator.md R178). -/
def execMdAddPostamble (s : State) : Host.Outcome State Fault Refusal := finish (mdAddPostamble s)
/-- MD.ADD_SYMBOL (43_modulator.md R176). -/
def execMdAddSymbol (b : Bool) (s : State) : Host.Outcome State Fault Refusal := finish (mdAddSymbol b s)
/-- MD.GET_SAMPLE (43_modulator.md R179). -/
def execMdGetSample (s : State) : Host.Outcome State Fault Refusal := finish (mdGetSample s)

end Sys2Proof.Machine
end

