-- ==== Sys2Proof/Machine/FrameCodec.lean ====
section
/-! DEFINITION. The frame codec, UNIT 4 (45_frame_codec.md), with the facade's frame consumer that its receive path
hands a payload to (46_facade.md R263). The shared bodies are also what `call FC.<OP>` runs. -/

namespace Sys2Proof.Machine

/-- `FLAG`, the frame boundary octet (45_frame_codec.md R210). -/
def flagOctet : BitVec 8 := 0x7E
/-- `ESC`, the control-escape octet. -/
def escOctet : BitVec 8 := 0x7D
/-- `XMASK`, the escape-XOR mask. -/
def escMask : BitVec 8 := 0x20

/-! ## Sending -/

/-- `escape(b)` (45_frame_codec.md R211). -/
def escapeByte (b : BitVec 8) : List (BitVec 8) :=
  if b = flagOctet ∨ b = escOctet then [escOctet, b ^^^ escMask] else [b]

/-- The two CRC bytes in sending order (45_frame_codec.md R224, 20_memory.md R62). -/
def crcBytes (be : Bool) (c : BitVec 16) : List (BitVec 8) :=
  if be then [c.extractLsb' 8 8, c.extractLsb' 0 8] else [c.extractLsb' 0 8, c.extractLsb' 8 8]

/-- The octets between the two boundary octets: the escaped payload and the two escaped CRC bytes
(45_frame_codec.md R224). -/
def frameBody (poly : BitVec 16) (be : Bool) (payload : List (BitVec 8)) : List (BitVec 8) :=
  (payload ++ crcBytes be (crcFold poly 0xFFFF payload)).flatMap escapeByte

/-- The octets of a frame in emission order (45_frame_codec.md R224). -/
def frameOctets (poly : BitVec 16) (be : Bool) (payload : List (BitVec 8)) : List (BitVec 8) :=
  [flagOctet] ++ frameBody poly be payload ++ [flagOctet]

/-- The bits of an octet, least significant first (20_memory.md R63). -/
def octetBits (o : BitVec 8) : List Bool := (List.range 8).map fun i => o.getLsbD i

/-- Bits sent with stuffing, from `ones` one-bits in a row: the symbols presented and the count after them
(45_frame_codec.md R212, `isFlag = 0`). -/
def stuffBits : Nat → List Bool → List Bool × Nat
  | ones, [] => ([], ones)
  | _, false :: bs =>
    let r := stuffBits 0 bs
    (false :: r.1, r.2)
  | ones, true :: bs =>
    if ones + 1 = 5 then
      let r := stuffBits 0 bs
      (true :: false :: r.1, r.2)
    else
      let r := stuffBits (ones + 1) bs
      (true :: r.1, r.2)

/-- The symbols of a frame in bit mode: the boundary octets unstuffed, the octets between them stuffed with the count
started at 0 (45_frame_codec.md R212, R224). Each boundary octet leaves the count 0. -/
def frameBits (poly : BitVec 16) (be : Bool) (payload : List (BitVec 8)) : List Bool :=
  octetBits flagOctet ++ (stuffBits 0 ((frameBody poly be payload).flatMap octetBits)).1 ++ octetBits flagOctet

/-- The staged payload `FAC.txbuf[0 .. FAC.txLen-1]` (45_frame_codec.md R215, R216). -/
def State.txPayload (s : State) : List (BitVec 8) := Memory.firstN s.fac.txbuf s.fac.txLen

/-- FC.SEND_FRAME_BYTES (45_frame_codec.md R215): every octet goes to BYTE_OUT in order; `FC.ones` is reset (R224). A
number above 32 bits: notes/assumptions/20.md. -/
def fcSendFrameBytes (s : State) : State × Resp :=
  let os := frameOctets s.build.crcPoly s.fc.crcBE s.txPayload
  ((s.setFc { s.fc with ones := 0 }).emit os, respond true (zext32 os.length))

/-- FC.SEND_FRAME_BITS (45_frame_codec.md R216): every symbol is presented to MD.ADD_SYMBOL in order, also after one
fails; `ok` is 1 when all were queued. The closing boundary leaves `FC.ones` 0 (R212). A number above 32 bits:
notes/assumptions/20.md. -/
def fcSendFrameBits (s : State) : State × Resp :=
  let bs := frameBits s.build.crcPoly s.fc.crcBE s.txPayload
  let r := mdAddSymbols bs (s.setFc { s.fc with ones := 0 })
  (r.1, respond (decide (r.2 = bs.length)) (zext32 bs.length))

/-! ## Configuration -/

/-- The registers after FC.CLEAR (45_frame_codec.md R214). -/
def FcRegs.cleared (f : FcRegs) : FcRegs :=
  { f with
    pos := 0, rxCrc := 0xFFFF, inEsc := false, discard := false
    sr := 0, acc := 0, nbits := 0, ones := 0 }

/-- FC.CLEAR (45_frame_codec.md R214). -/
def fcClear (s : State) : State × Resp := (s.setFc s.fc.cleared, respond true 0)

/-- FC.SETUP (45_frame_codec.md R213). -/
def fcSetup (s : State) : State × Resp :=
  ((fcClear (s.setFc { s.fc with crcBE := s.cfg.crcBigEndian })).1, respond true 0)

/-! ## Receiving -/

/-- `consume(buf, n)`: the block after it and whether the frame was DROPPED (46_facade.md R263). -/
def consume (n : Nat) (s : State) : State × Bool :=
  if s.fac.pendValid then (s.event .msgDropped, true)
  else
    (s.setFac { s.fac with
      pend := Memory.copy s.fc.buf n s.fac.pend
      pendLen := n
      pendValid := true }, false)

/-- The parser's registers after a boundary (45_frame_codec.md R218, its last line). -/
def FcRegs.endFrame (f : FcRegs) : FcRegs :=
  { f with pos := 0, rxCrc := 0xFFFF, inEsc := false, discard := false }

/-- `rx`, the CRC received in the last two buffered bytes (45_frame_codec.md R218). -/
def FcRegs.receivedCrc (f : FcRegs) : BitVec 16 :=
  let hi2 : BitVec 8 := Memory.read f.buf (f.pos - 2)
  let lo2 : BitVec 8 := Memory.read f.buf (f.pos - 1)
  if f.crcBE then hi2 ++ lo2 else lo2 ++ hi2

/-- `boundary()` (45_frame_codec.md R218, R222). -/
def fcBoundary (s : State) : State × RxFlags :=
  if 2 ≤ s.fc.pos then
    if s.fc.receivedCrc = s.fc.rxCrc then
      let r := consume (s.fc.pos - 2) (s.event .frameOk)
      (r.1.setFc r.1.fc.endFrame, { frameOk := true, msgDropped := r.2 })
    else ((s.event .crcMismatch).setFc s.fc.endFrame, { crcMismatch := true })
  else (s.setFc s.fc.endFrame, {})

/-- `store(b)` (45_frame_codec.md R220). -/
def fcStore (b : BitVec 8) (s : State) : State × RxFlags :=
  if s.fc.pos = s.build.maxFrameLen then
    ((s.setFc { s.fc with pos := 0, rxCrc := 0xFFFF, inEsc := false, discard := true }).event .oversize,
      { oversize := true })
  else
    let buf := Memory.write s.fc.buf s.fc.pos b
    (s.setFc { s.fc with
      buf := buf
      rxCrc := if 2 ≤ s.fc.pos then crcUpd s.build.crcPoly s.fc.rxCrc (Memory.read buf (s.fc.pos - 2)) else s.fc.rxCrc
      pos := s.fc.pos + 1 }, { stored := true })

/-- `rxByte(b)` (45_frame_codec.md R217, R219). -/
def fcRxByte (b : BitVec 8) (s : State) : State × RxFlags :=
  if b = flagOctet then fcBoundary s
  else if s.fc.discard then (s, {})
  else if b = escOctet then (s.setFc { s.fc with inEsc := !s.fc.inEsc }, {})
  else if s.fc.inEsc then fcStore (b ^^^ escMask) (s.setFc { s.fc with inEsc := false })
  else fcStore b s

/-- A register with `bit` shifted in at bit 7: `{bit, r[7:1]}` (45_frame_codec.md R221). -/
def shiftInBit (bit : Bool) (r : BitVec 8) : BitVec 8 := BitVec.ofBool bit ++ r.extractLsb' 1 7

/-- `rxBit(bit)` (45_frame_codec.md R221). -/
def fcRxBit (bit : Bool) (s : State) : State × RxFlags :=
  let sr := shiftInBit bit s.fc.sr
  let s1 := s.setFc { s.fc with sr := sr }
  if sr = flagOctet then
    let r := fcRxByte flagOctet s1
    (r.1.setFc { r.1.fc with acc := 0, nbits := 0 }, { r.2 with flagSeen := true })
  else if sr &&& 0xFC = 0x7C then (s1, { destuffed := true })
  else
    let acc := shiftInBit bit s1.fc.acc
    if s1.fc.nbits + 1 = 8 then
      let r := fcRxByte acc (s1.setFc { s1.fc with acc := acc, nbits := s1.fc.nbits + 1 })
      (r.1.setFc { r.1.fc with acc := 0, nbits := 0 }, { r.2 with byteDispatched := true })
    else (s1.setFc { s1.fc with acc := acc, nbits := s1.fc.nbits + 1 }, {})

/-! ## The commands of UNIT 4 -/

/-- FC.SETUP (45_frame_codec.md R213). -/
def execFcSetup (s : State) : Host.Outcome State Fault Refusal := finish (fcSetup s)
/-- FC.CLEAR (45_frame_codec.md R214). -/
def execFcClear (s : State) : Host.Outcome State Fault Refusal := finish (fcClear s)
/-- FC.SEND_FRAME_BYTES (45_frame_codec.md R215). -/
def execFcSendFrameBytes (s : State) : Host.Outcome State Fault Refusal := finish (fcSendFrameBytes s)
/-- FC.SEND_FRAME_BITS (45_frame_codec.md R216). -/
def execFcSendFrameBits (s : State) : Host.Outcome State Fault Refusal := finish (fcSendFrameBits s)
/-- FC.RX_BYTE (45_frame_codec.md R217). -/
def execFcRxByte (b : BitVec 8) (s : State) : Host.Outcome State Fault Refusal :=
  finish ((fcRxByte b s).1, respond true (fcRxByte b s).2.rdata)
/-- FC.RX_BIT (45_frame_codec.md R221). -/
def execFcRxBit (bit : Bool) (s : State) : Host.Outcome State Fault Refusal :=
  finish ((fcRxBit bit s).1, respond true (fcRxBit bit s).2.rdata)

end Sys2Proof.Machine
end

