-- ==== Sys2Proof/Machine/Queue.lean ====
section
/-! DEFINITION. The bounded queues (40_queue.md): the commands of UNIT 6 (TXQ) and UNIT 7 (RXQ). Both instances run the
same rules (R110); the shared operations take the instance, and each command has a meaning of its own over them. -/

namespace Sys2Proof.Machine

/-- The instance a command's UNIT names (40_queue.md, opening). -/
inductive QueueId where
  | tx
  | rx
deriving DecidableEq, Repr

/-- The registers of an instance. -/
def State.queue (s : State) : QueueId → QueueRegs
  | .tx => s.txq
  | .rx => s.rxq

/-- The slot count `N` of an instance (00_scope.md R8). -/
def State.slots (s : State) : QueueId → Nat
  | .tx => s.build.txqN
  | .rx => s.build.rxqN

/-- An instance's new registers; the other instance's are untouched (40_queue.md R110). -/
def State.setQueue (s : State) : QueueId → QueueRegs → State
  | .tx, q => s.setTxq q
  | .rx, q => s.setRxq q

/-- Q.CAN_PUT (40_queue.md R101). -/
def queueCanPut (i : QueueId) (s : State) : State × Resp :=
  (s, respond true (bit32 ((s.queue i).canPut (s.slots i))))

/-- Q.PUT (40_queue.md R102) of an item. -/
def queuePut (i : QueueId) (item : Nat) (s : State) : Host.Outcome State Fault Refusal :=
  if (s.queue i).canPut (s.slots i) then
    finish (s.setQueue i ((s.queue i).push (s.slots i) item), respond true 0)
  else .fault (.queuePutFull s.cmdReg s.serving)

/-- Q.CAN_GET (40_queue.md R103). -/
def queueCanGet (i : QueueId) (s : State) : State × Resp := (s, respond true (bit32 (s.queue i).canGet))

/-- Q.GET (40_queue.md R104). An item above 32 bits is answered by its low 32 (DESIGN CHOICE, notes/assumptions/20.md). -/
def queueGet (i : QueueId) (s : State) : Host.Outcome State Fault Refusal :=
  if (s.queue i).canGet then
    finish (s.setQueue i ((s.queue i).pop (s.slots i)), respond true (zext32 (s.queue i).head))
  else .fault (.queueGetEmpty s.cmdReg s.serving)

/-- Q.CLEAR (40_queue.md R105). -/
def queueClear (i : QueueId) (s : State) : State × Resp := (s.setQueue i (s.queue i).cleared, respond true 0)

/-- Q.COUNT (40_queue.md R106). An answer above 32 bits is its low 32 bits (DESIGN CHOICE, notes/assumptions/20.md). -/
def queueCount (i : QueueId) (s : State) : State × Resp :=
  (s, respond true (zext32 ((s.queue i).count (s.slots i))))

/-- Q.NTH_FROM_PUT (40_queue.md R107): slot `(put - 1 - n) mod N`. An
answer above 32 bits is its low 32 bits (DESIGN CHOICE, notes/assumptions/20.md). -/
def queueNthFromPut (i : QueueId) (n : BitVec 32) (s : State) : State × Resp :=
  if (s.queue i).count (s.slots i) ≤ n.toNat then (s, respond false 0)
  else (s, respond true (zext32 (imod (((s.queue i).put : Int) - 1 - n.toNat) (s.slots i))))

/-- Q.NTH_FROM_GET (40_queue.md R108): slot `(get + n) mod N`. An
answer above 32 bits is its low 32 bits (DESIGN CHOICE, notes/assumptions/20.md). -/
def queueNthFromGet (i : QueueId) (n : BitVec 32) (s : State) : State × Resp :=
  if (s.queue i).count (s.slots i) ≤ n.toNat then (s, respond false 0)
  else (s, respond true (zext32 (((s.queue i).get + n.toNat) % s.slots i)))

/-! ## The commands of UNIT 6 -/

/-- TXQ.CAN_PUT (40_queue.md R101). -/
def execTxqCanPut (s : State) : Host.Outcome State Fault Refusal := finish (queueCanPut .tx s)
/-- TXQ.PUT (40_queue.md R102). -/
def execTxqPut (item : BitVec 32) (s : State) : Host.Outcome State Fault Refusal :=
  queuePut .tx (operandItem s.build item) s
/-- TXQ.CAN_GET (40_queue.md R103). -/
def execTxqCanGet (s : State) : Host.Outcome State Fault Refusal := finish (queueCanGet .tx s)
/-- TXQ.GET (40_queue.md R104). -/
def execTxqGet (s : State) : Host.Outcome State Fault Refusal := queueGet .tx s
/-- TXQ.CLEAR (40_queue.md R105). -/
def execTxqClear (s : State) : Host.Outcome State Fault Refusal := finish (queueClear .tx s)
/-- TXQ.COUNT (40_queue.md R106). -/
def execTxqCount (s : State) : Host.Outcome State Fault Refusal := finish (queueCount .tx s)
/-- TXQ.NTH_FROM_PUT (40_queue.md R107). -/
def execTxqNthFromPut (n : BitVec 32) (s : State) : Host.Outcome State Fault Refusal := finish (queueNthFromPut .tx n s)
/-- TXQ.NTH_FROM_GET (40_queue.md R108). -/
def execTxqNthFromGet (n : BitVec 32) (s : State) : Host.Outcome State Fault Refusal := finish (queueNthFromGet .tx n s)

/-! ## The commands of UNIT 7 -/

/-- RXQ.CAN_PUT (40_queue.md R101). -/
def execRxqCanPut (s : State) : Host.Outcome State Fault Refusal := finish (queueCanPut .rx s)
/-- RXQ.PUT (40_queue.md R102). -/
def execRxqPut (item : BitVec 32) (s : State) : Host.Outcome State Fault Refusal :=
  queuePut .rx (operandItem s.build item) s
/-- RXQ.CAN_GET (40_queue.md R103). -/
def execRxqCanGet (s : State) : Host.Outcome State Fault Refusal := finish (queueCanGet .rx s)
/-- RXQ.GET (40_queue.md R104). -/
def execRxqGet (s : State) : Host.Outcome State Fault Refusal := queueGet .rx s
/-- RXQ.CLEAR (40_queue.md R105). -/
def execRxqClear (s : State) : Host.Outcome State Fault Refusal := finish (queueClear .rx s)
/-- RXQ.COUNT (40_queue.md R106). -/
def execRxqCount (s : State) : Host.Outcome State Fault Refusal := finish (queueCount .rx s)
/-- RXQ.NTH_FROM_PUT (40_queue.md R107). -/
def execRxqNthFromPut (n : BitVec 32) (s : State) : Host.Outcome State Fault Refusal := finish (queueNthFromPut .rx n s)
/-- RXQ.NTH_FROM_GET (40_queue.md R108). -/
def execRxqNthFromGet (n : BitVec 32) (s : State) : Host.Outcome State Fault Refusal := finish (queueNthFromGet .rx n s)

end Sys2Proof.Machine
end

