-- ==== Sys2Proof/Machine/Facade.lean ====
section
/-! DEFINITION. The modem facade, UNIT 0 (46_facade.md): the commands that compose the other units, the message buffers
and the configuration registers. -/

namespace Sys2Proof.Machine

/-- The message buffers emptied by FAC.SETUP, and `cfgErr` cleared (46_facade.md R252). -/
def FacRegs.cleared (f : FacRegs) : FacRegs :=
  { f with txLen := 0, pendValid := false, pendLen := 0, cfgErr := false }

/-- FAC.SETUP (46_facade.md R252). -/
def facSetup (s : State) : State × Resp :=
  if s.cfg.valid then
    let s1 := (mdSetup s).1
    let s2 := (dmSetup s1).1
    let s3 := (fcSetup s2).1
    (s3.setFac s3.fac.cleared, respond true 0)
  else (s.setCfgErr true, respond false 0)

/-- FAC.ENCODE_MESSAGE (46_facade.md R253). A number above 32 bits: notes/assumptions/20.md. -/
def facEncodeMessage (s : State) : State × Resp :=
  let s1 := (mdClear s).1
  let s2 := (mdAddPreamble s1).1
  let s3 := (fcSendFrameBits s2).1
  let s4 := (mdAddPostamble s3).1
  (s4, respond (!s4.md.txOverflow) (zext32 (s4.txq.count s4.build.txqN)))

/-- The loop of 46_facade.md R255: while RXQ holds a symbol, it is taken and fed to FC.RX_BIT. Each turn takes one
symbol, so as many turns as RXQ holds symbols at the start drain it (notes/assumptions/8.md). FC.RX_BIT gets the bit of the
item (notes/assumptions/19.md). -/
def facDrain : Nat → State → DecFlags → State × DecFlags
  | 0, s, f => (s, f)
  | k + 1, s, f =>
    if s.rxq.canGet then
      let q := fcRxBit (itemBit s.rxq.head) (s.setRxq (s.rxq.pop s.build.rxqN))
      facDrain k q.1 (f.add q.2)
    else (s, f)

/-- FAC.DECODE_PROCESS_SAMPLE (46_facade.md R255). -/
def facDecodeProcessSample (x : Int) (s : State) : State × Resp :=
  let r := dmProcess x s
  let q := facDrain (r.1.rxq.count r.1.build.rxqN) r.1
    { pushed := r.2.pushed, sym := r.2.sym, dropped := r.2.dropped }
  (q.1, respond true (q.2.rdata q.1.fac.pendValid))

/-- FAC.DECODE_CLEAR_MESSAGE (46_facade.md R257). -/
def facDecodeClearMessage (s : State) : State × Resp :=
  (s.setFac { s.fac with pendValid := false, pendLen := 0 }, respond true 0)

/-- FAC.TXBUF_PUSH (46_facade.md R259). -/
def facTxbufPush (b : BitVec 8) (s : State) : State × Resp :=
  if s.fac.txLen = s.build.txbufLen then (s, respond false 0)
  else
    (s.setFac { s.fac with txbuf := Memory.write s.fac.txbuf s.fac.txLen b, txLen := s.fac.txLen + 1 },
      respond true 0)

/-- FAC.RXMSG_READ (46_facade.md R260). -/
def facRxmsgRead (i : BitVec 32) (s : State) : State × Resp :=
  if s.fac.pendValid ∧ i.toNat < s.fac.pendLen then
    (s, respond true ((Memory.read s.fac.pend i.toNat).setWidth 32))
  else (s, respond false 0)

/-- FAC.CFG_WRITE (46_facade.md R261, 10_state.md R22). -/
def facCfgWrite (k : BitVec 8) (v : BitVec 32) (s : State) : State × Resp :=
  if 9 ≤ k.toNat then (s, respondIllegal)
  else (s.setCfg (s.cfg.write k.toNat (v &&& cfgMask k.toNat)), respond true 0)

/-- FAC.CFG_READ (46_facade.md R262, 10_state.md R22). -/
def facCfgRead (k : BitVec 8) (s : State) : State × Resp :=
  if 10 ≤ k.toNat then (s, respondIllegal)
  else if k.toNat = 9 then (s, respond true s.status)
  else (s, respond true (s.cfg.read k.toNat))

/-! ## The commands of UNIT 0 -/

/-- FAC.NOP (46_facade.md R251). -/
def execFacNop (s : State) : Host.Outcome State Fault Refusal := finish (s, respond true 0)
/-- FAC.SETUP (46_facade.md R252). -/
def execFacSetup (s : State) : Host.Outcome State Fault Refusal := finish (facSetup s)
/-- FAC.ENCODE_MESSAGE (46_facade.md R253). -/
def execFacEncodeMessage (s : State) : Host.Outcome State Fault Refusal := finish (facEncodeMessage s)
/-- FAC.ENCODE_GET_SAMPLE (46_facade.md R254). -/
def execFacEncodeGetSample (s : State) : Host.Outcome State Fault Refusal := finish (mdGetSample s)
/-- FAC.DECODE_PROCESS_SAMPLE (46_facade.md R255). -/
def execFacDecodeProcessSample (x : BitVec 32) (s : State) : Host.Outcome State Fault Refusal :=
  finish (facDecodeProcessSample (operandSample s.build x) s)
/-- FAC.DECODE_GET_MESSAGE (46_facade.md R256). A length above 32 bits: notes/assumptions/20.md. -/
def execFacDecodeGetMessage (s : State) : Host.Outcome State Fault Refusal :=
  finish (s, respond s.fac.pendValid (zext32 s.fac.pendLen))
/-- FAC.DECODE_CLEAR_MESSAGE (46_facade.md R257). -/
def execFacDecodeClearMessage (s : State) : Host.Outcome State Fault Refusal := finish (facDecodeClearMessage s)
/-- FAC.TXBUF_CLEAR (46_facade.md R258). -/
def execFacTxbufClear (s : State) : Host.Outcome State Fault Refusal :=
  finish (s.setFac { s.fac with txLen := 0 }, respond true 0)
/-- FAC.TXBUF_PUSH (46_facade.md R259). -/
def execFacTxbufPush (b : BitVec 8) (s : State) : Host.Outcome State Fault Refusal := finish (facTxbufPush b s)
/-- FAC.RXMSG_READ (46_facade.md R260). -/
def execFacRxmsgRead (i : BitVec 32) (s : State) : Host.Outcome State Fault Refusal := finish (facRxmsgRead i s)
/-- FAC.CFG_WRITE (46_facade.md R261). -/
def execFacCfgWrite (k : BitVec 8) (v : BitVec 32) (s : State) : Host.Outcome State Fault Refusal :=
  finish (facCfgWrite k v s)
/-- FAC.CFG_READ (46_facade.md R262). -/
def execFacCfgRead (k : BitVec 8) (s : State) : Host.Outcome State Fault Refusal := finish (facCfgRead k s)

end Sys2Proof.Machine
end

