-- ==== Sys2Proof/Machine/Dispatch.lean ====
section
/-! DEFINITION. The meaning of every command, one arm per constructor of `Instr`. -/

namespace Sys2Proof.Machine

def exec (i : Instr) (s : State) : Host.Outcome State Fault Refusal :=
  match i with
  | .facNop => Sys2Proof.Machine.execFacNop s
  | .facSetup => Sys2Proof.Machine.execFacSetup s
  | .facEncodeMessage => Sys2Proof.Machine.execFacEncodeMessage s
  | .facEncodeGetSample => Sys2Proof.Machine.execFacEncodeGetSample s
  | .facDecodeProcessSample x => Sys2Proof.Machine.execFacDecodeProcessSample x s
  | .facDecodeGetMessage => Sys2Proof.Machine.execFacDecodeGetMessage s
  | .facDecodeClearMessage => Sys2Proof.Machine.execFacDecodeClearMessage s
  | .facTxbufClear => Sys2Proof.Machine.execFacTxbufClear s
  | .facTxbufPush b => Sys2Proof.Machine.execFacTxbufPush b s
  | .facRxmsgRead idx => Sys2Proof.Machine.execFacRxmsgRead idx s
  | .facCfgWrite k v => Sys2Proof.Machine.execFacCfgWrite k v s
  | .facCfgRead k => Sys2Proof.Machine.execFacCfgRead k s
  | .mdSetup => Sys2Proof.Machine.execMdSetup s
  | .mdClear => Sys2Proof.Machine.execMdClear s
  | .mdSetPreamble n => Sys2Proof.Machine.execMdSetPreamble n s
  | .mdSetPostamble n => Sys2Proof.Machine.execMdSetPostamble n s
  | .mdAddPreamble => Sys2Proof.Machine.execMdAddPreamble s
  | .mdAddPostamble => Sys2Proof.Machine.execMdAddPostamble s
  | .mdAddSymbol b => Sys2Proof.Machine.execMdAddSymbol b s
  | .mdGetSample => Sys2Proof.Machine.execMdGetSample s
  | .dmSetup => Sys2Proof.Machine.execDmSetup s
  | .dmClear => Sys2Proof.Machine.execDmClear s
  | .dmProcessSample x => Sys2Proof.Machine.execDmProcessSample x s
  | .crSetup => Sys2Proof.Machine.execCrSetup s
  | .crClear => Sys2Proof.Machine.execCrClear s
  | .crTransition t => Sys2Proof.Machine.execCrTransition t s
  | .fcSetup => Sys2Proof.Machine.execFcSetup s
  | .fcClear => Sys2Proof.Machine.execFcClear s
  | .fcSendFrameBytes => Sys2Proof.Machine.execFcSendFrameBytes s
  | .fcSendFrameBits => Sys2Proof.Machine.execFcSendFrameBits s
  | .fcRxByte b => Sys2Proof.Machine.execFcRxByte b s
  | .fcRxBit bit => Sys2Proof.Machine.execFcRxBit bit s
  | .crcInit => Sys2Proof.Machine.execCrcInit s
  | .crcUpdate b => Sys2Proof.Machine.execCrcUpdate b s
  | .crcRead => Sys2Proof.Machine.execCrcRead s
  | .crcTableRead idx => Sys2Proof.Machine.execCrcTableRead idx s
  | .txqCanPut => Sys2Proof.Machine.execTxqCanPut s
  | .txqPut item => Sys2Proof.Machine.execTxqPut item s
  | .txqCanGet => Sys2Proof.Machine.execTxqCanGet s
  | .txqGet => Sys2Proof.Machine.execTxqGet s
  | .txqClear => Sys2Proof.Machine.execTxqClear s
  | .txqCount => Sys2Proof.Machine.execTxqCount s
  | .txqNthFromPut n => Sys2Proof.Machine.execTxqNthFromPut n s
  | .txqNthFromGet n => Sys2Proof.Machine.execTxqNthFromGet n s
  | .rxqCanPut => Sys2Proof.Machine.execRxqCanPut s
  | .rxqPut item => Sys2Proof.Machine.execRxqPut item s
  | .rxqCanGet => Sys2Proof.Machine.execRxqCanGet s
  | .rxqGet => Sys2Proof.Machine.execRxqGet s
  | .rxqClear => Sys2Proof.Machine.execRxqClear s
  | .rxqCount => Sys2Proof.Machine.execRxqCount s
  | .rxqNthFromPut n => Sys2Proof.Machine.execRxqNthFromPut n s
  | .rxqNthFromGet n => Sys2Proof.Machine.execRxqNthFromGet n s

end Sys2Proof.Machine
end

