-- ==== Sys2Proof/Machine/Step.lean ====
section
/-! DEFINITION. One step of the machine: the reset input, the serving of one port, decoding and execution. -/

namespace Sys2Proof.Machine

/-- The command that has been taken runs: its word is decoded and executed, or answered as illegal
(30_encoding.md R86, R88). -/
def runCommand (s : State) : Host.Outcome State Fault Refusal :=
  match decode s.cmdReg with
  | .ok i => exec i s
  | .error _ => finish (s, respondIllegal)

/-- One step. A build outside 00_scope.md R9 is refused. With the reset input asserted the block is reset
(70_reset_and_hazards.md R331). Else one pending command is taken from a port and runs to its end, one atomic
transition (20_memory.md R67, R69); with none pending the block waits (R74). -/
def step (s : State) : Host.Outcome State Fault Refusal :=
  if s.build.valid then
    match s.resetIn with
    | .betweenCommands => .next s.applyReset
    | .duringCommand => .next s.abandon.applyReset
    | .off =>
      match s.nextPort with
      | none => .next s
      | some (p, order) => runCommand (s.accept p order)
  else .refused .buildOutsideSpec

/-- `s` with the word of a command, `nbits` bits of `w` given and every bit above zero, put where the next step takes its
command: the tick port's next command, ahead of what is pending there. Reset is not asserted, and where the application
port has a command pending too the port order gives the tick port the next turn. -/
def State.withFetchWord (s : State) (nbits w : Nat) : State :=
  { s with
    portT := { s.portT with pending := BitVec.ofNat 64 (w % 2 ^ nbits) :: s.portT.pending }
    portOrder := match s.portA.pending with
      | [] => s.portOrder
      | _ :: _ => .tick :: s.portOrder
    resetIn := .off }

end Sys2Proof.Machine
end

