-- ==== Sys2Proof/Machine/Assembler.lean ====
section
/-! DEFINITION. The command text of 30_encoding.md R89 and the pseudo-instructions of R90: text to command words. It is the
host's tool, no part of a step. -/

namespace Sys2Proof.Machine

/-- Why a line is rejected. -/
inductive AsmError where
  /-- the characters do not form a line of R89 -/
  | badSyntax
  /-- no command and no pseudo-instruction has that name -/
  | unknownMnemonic
  /-- the command takes another number of operands -/
  | wrongOperands
  /-- an operand is outside the range of the field the command reads (R89) -/
  | outOfRange
deriving DecidableEq, Repr

/-- An operand: a number, or a text in double quotes (only `SEND "text"` and `RXBITS "0110..."` take one). -/
inductive AsmOperand where
  | num (v : Int)
  | text (cs : List Char)
deriving DecidableEq, Repr

/-- What a command reads (R85, R89). -/
inductive AsmShape where
  | nothing
  | bit
  | byte
  | half
  | sample
  | word
  /-- `SEL` alone (FAC.CFG_READ) -/
  | sel
  /-- `SEL` and then `DATA` (FAC.CFG_WRITE) -/
  | selWord
deriving DecidableEq, Repr

/-- A row of R83: its name, the command's word with every operand zero, what it reads. -/
abbrev AsmRow := String × CmdWord × AsmShape

/-- The rows of R83 of FAC. -/
def facAsmRows : List AsmRow :=
  [("FAC.NOP", encode .facNop, .nothing), ("FAC.SETUP", encode .facSetup, .nothing),
   ("FAC.ENCODE_MESSAGE", encode .facEncodeMessage, .nothing),
   ("FAC.ENCODE_GET_SAMPLE", encode .facEncodeGetSample, .nothing),
   ("FAC.DECODE_PROCESS_SAMPLE", encode (.facDecodeProcessSample 0), .sample),
   ("FAC.DECODE_GET_MESSAGE", encode .facDecodeGetMessage, .nothing),
   ("FAC.DECODE_CLEAR_MESSAGE", encode .facDecodeClearMessage, .nothing),
   ("FAC.TXBUF_CLEAR", encode .facTxbufClear, .nothing), ("FAC.TXBUF_PUSH", encode (.facTxbufPush 0), .byte),
   ("FAC.RXMSG_READ", encode (.facRxmsgRead 0), .word), ("FAC.CFG_WRITE", encode (.facCfgWrite 0 0), .selWord),
   ("FAC.CFG_READ", encode (.facCfgRead 0), .sel)]

/-- The rows of R83 of MD. -/
def mdAsmRows : List AsmRow :=
  [("MD.SETUP", encode .mdSetup, .nothing), ("MD.CLEAR", encode .mdClear, .nothing),
   ("MD.SET_PREAMBLE", encode (.mdSetPreamble 0), .half), ("MD.SET_POSTAMBLE", encode (.mdSetPostamble 0), .half),
   ("MD.ADD_PREAMBLE", encode .mdAddPreamble, .nothing), ("MD.ADD_POSTAMBLE", encode .mdAddPostamble, .nothing),
   ("MD.ADD_SYMBOL", encode (.mdAddSymbol false), .bit), ("MD.GET_SAMPLE", encode .mdGetSample, .nothing)]

/-- The rows of R83 of DM. -/
def dmAsmRows : List AsmRow :=
  [("DM.SETUP", encode .dmSetup, .nothing), ("DM.CLEAR", encode .dmClear, .nothing),
   ("DM.PROCESS_SAMPLE", encode (.dmProcessSample 0), .sample)]

/-- The rows of R83 of CR. -/
def crAsmRows : List AsmRow :=
  [("CR.SETUP", encode .crSetup, .nothing), ("CR.CLEAR", encode .crClear, .nothing),
   ("CR.TRANSITION", encode (.crTransition 0), .word)]

/-- The rows of R83 of FC. -/
def fcAsmRows : List AsmRow :=
  [("FC.SETUP", encode .fcSetup, .nothing), ("FC.CLEAR", encode .fcClear, .nothing),
   ("FC.SEND_FRAME_BYTES", encode .fcSendFrameBytes, .nothing),
   ("FC.SEND_FRAME_BITS", encode .fcSendFrameBits, .nothing),
   ("FC.RX_BYTE", encode (.fcRxByte 0), .byte), ("FC.RX_BIT", encode (.fcRxBit false), .bit)]

/-- The rows of R83 of CRC. -/
def crcAsmRows : List AsmRow :=
  [("CRC.INIT", encode .crcInit, .nothing), ("CRC.UPDATE", encode (.crcUpdate 0), .byte),
   ("CRC.READ", encode .crcRead, .nothing), ("CRC.TABLE_READ", encode (.crcTableRead 0), .byte)]

/-- The rows of R83 of TXQ. -/
def txqAsmRows : List AsmRow :=
  [("TXQ.CAN_PUT", encode .txqCanPut, .nothing), ("TXQ.PUT", encode (.txqPut 0), .bit),
   ("TXQ.CAN_GET", encode .txqCanGet, .nothing), ("TXQ.GET", encode .txqGet, .nothing),
   ("TXQ.CLEAR", encode .txqClear, .nothing), ("TXQ.COUNT", encode .txqCount, .nothing),
   ("TXQ.NTH_FROM_PUT", encode (.txqNthFromPut 0), .word),
   ("TXQ.NTH_FROM_GET", encode (.txqNthFromGet 0), .word)]

/-- The rows of R83 of RXQ. -/
def rxqAsmRows : List AsmRow :=
  [("RXQ.CAN_PUT", encode .rxqCanPut, .nothing), ("RXQ.PUT", encode (.rxqPut 0), .bit),
   ("RXQ.CAN_GET", encode .rxqCanGet, .nothing), ("RXQ.GET", encode .rxqGet, .nothing),
   ("RXQ.CLEAR", encode .rxqClear, .nothing), ("RXQ.COUNT", encode .rxqCount, .nothing),
   ("RXQ.NTH_FROM_PUT", encode (.rxqNthFromPut 0), .word),
   ("RXQ.NTH_FROM_GET", encode (.rxqNthFromGet 0), .word)]

/-- The rows of R83. -/
def asmRows : List AsmRow :=
  facAsmRows ++ mdAsmRows ++ dmAsmRows ++ crAsmRows ++ fcAsmRows ++ crcAsmRows ++ txqAsmRows ++ rxqAsmRows

/-- The range of the field a command reads in the default build: 0 to 1, 0 to 255, 0 to 65535, -32768 to 32767, 0 to 2^32 - 1
(R85, R89). A character is in range where its code is: R89 gives a character above 255 no byte value, and that it is rejected
for a byte or a bit and assembled as its code in a wider field is the model's choice (DESIGN CHOICE,
notes/assumptions/14.md). -/
def inAsmRange (f : AsmShape) (v : Int) : Bool :=
  match f with
  | .nothing => false
  | .bit => decide (0 ≤ v) && decide (v ≤ 1)
  | .byte | .sel => decide (0 ≤ v) && decide (v ≤ 255)
  | .half => decide (0 ≤ v) && decide (v ≤ 65535)
  | .sample => decide (-32768 ≤ v) && decide (v ≤ 32767)
  | .word | .selWord => decide (0 ≤ v) && decide (v < 2 ^ 32)

/-- `DATA = wrap_32(v)` placed in a word (R89). -/
def withData (w : CmdWord) (v : Int) : CmdWord := w ||| (BitVec.ofInt 32 v).setWidth 64

/-- `SEL` placed in a word (R80). -/
def withSel (w : CmdWord) (k : Int) : CmdWord := w ||| ((BitVec.ofInt 8 k).setWidth 64 <<< 48)

/-- One command from its name and operands (R89). -/
def assembleCommand (name : String) (ops : List AsmOperand) : Except AsmError CmdWord :=
  match asmRows.lookup name with
  | none => .error .unknownMnemonic
  | some (w, shape) =>
    match shape, ops with
    | .nothing, [] => .ok w
    | .nothing, _ :: _ => .error .wrongOperands
    | .sel, [.num k] => if inAsmRange .sel k then .ok (withSel w k) else .error .outOfRange
    | .selWord, [.num k, .num v] =>
      if inAsmRange .sel k && inAsmRange .selWord v then .ok (withData (withSel w k) v) else .error .outOfRange
    | .sel, _ | .selWord, _ => .error .wrongOperands
    | f, [.num v] => if inAsmRange f v then .ok (withData w v) else .error .outOfRange
    | _, _ => .error .wrongOperands

/-- One command per operand, in order (R90). -/
def assembleEach (name : String) : List AsmOperand → Except AsmError (List CmdWord)
  | [] => .ok []
  | o :: os =>
    match assembleCommand name [o], assembleEach name os with
    | .ok w, .ok ws => .ok (w :: ws)
    | .error e, _ => .error e
    | _, .error e => .error e

/-- The bytes of `SEND b0, ..., bk` or `SEND "text"` (R90). R90 writes at least one byte; that no operand at all is the empty
list of bytes is the model's choice (DESIGN CHOICE, notes/assumptions/14.md). -/
def byteOperands : List AsmOperand → List AsmOperand
  | [.text cs] => cs.map fun c => .num c.toNat
  | ops => ops

/-- The characters of `RXBITS "0110..."` as bits; another character is out of range (R90). -/
def bitOperands (cs : List Char) : List AsmOperand :=
  cs.map fun c => .num (if c = '0' then 0 else if c = '1' then 1 else 2)

/-- The settings of `CFG_DEFAULTS` (R90). -/
def cfgDefaults : List (Int × Int) :=
  [(0, 8000), (1, 100), (2, 1000), (3, 2000), (4, 3), (5, 20), (6, 5), (7, 0x6E5A), (8, 0x4B19)]

/-- The commands of `CFG_DEFAULTS` as instructions: CFG0 to CFG8 written with their reset values, then FAC.SETUP
(R90; 70_reset_and_hazards.md R332). -/
def cfgDefaultsProgram : List Instr :=
  (cfgDefaults.map fun kv => .facCfgWrite (BitVec.ofInt 8 kv.1) (BitVec.ofInt 32 kv.2)) ++ [.facSetup]

/-- A command or a pseudo-instruction with its operands: the words it stands for (R89, R90). `SEND`, `STAGE` and `RXBYTES`
with no operand are accepted, as the empty list of bytes, and so are the empty texts of `SEND ""` and `RXBITS ""`, of which
R90 does not speak (DESIGN CHOICE, notes/assumptions/14.md). -/
def assemble (name : String) (ops : List AsmOperand) : Except AsmError (List CmdWord) :=
  if name = "SEND" then
    match assembleEach "FAC.TXBUF_PUSH" (byteOperands ops) with
    | .ok ws => .ok (encode .facTxbufClear :: ws ++ [encode .facEncodeMessage])
    | .error e => .error e
  else if name = "STAGE" then
    match assembleEach "FAC.TXBUF_PUSH" ops with
    | .ok ws => .ok (encode .facTxbufClear :: ws)
    | .error e => .error e
  else if name = "RXBYTES" then assembleEach "FC.RX_BYTE" ops
  else if name = "RXBITS" then
    match ops with
    | [.text cs] => assembleEach "FC.RX_BIT" (bitOperands cs)
    | _ => .error .wrongOperands
  else if name = "CFG_DEFAULTS" then
    match ops with
    | [] => .ok (cfgDefaultsProgram.map encode)
    | _ :: _ => .error .wrongOperands
  else
    match assembleCommand name ops with
    | .ok w => .ok [w]
    | .error e => .error e

/-! ## Reading a line

The grammar of R89 says nothing of blanks: they may stand between any two parts of a line (DESIGN CHOICE,
notes/assumptions/14.md). -/

/-- Blanks skipped. -/
def skipBlanks (cs : List Char) : List Char := cs.dropWhile fun c => decide (c = ' ') || decide (c = '\t')

/-- A character of a name: a letter, a digit, a dot or an underscore (DESIGN CHOICE, notes/assumptions/14.md). -/
def isNameChar (c : Char) : Bool := c.isAlphanum || decide (c = '.') || decide (c = '_')

/-- The value of a hexadecimal digit, of either case (DESIGN CHOICE, notes/assumptions/14.md). -/
def hexDigit (c : Char) : Option Nat :=
  if '0' ≤ c ∧ c ≤ '9' then some (c.toNat - '0'.toNat)
  else if 'a' ≤ c ∧ c ≤ 'f' then some (c.toNat - 'a'.toNat + 10)
  else if 'A' ≤ c ∧ c ≤ 'F' then some (c.toNat - 'A'.toNat + 10)
  else none

/-- Digits of a base read as a number on top of `acc`; `seen` tells whether a digit was read. -/
def readDigits (base : Nat) : List Char → Nat → Bool → Option (Nat × List Char)
  | [], acc, seen => if seen then some (acc, []) else none
  | c :: cs, acc, seen =>
    match hexDigit c with
    | some d =>
      if d < base then readDigits base cs (acc * base + d) true
      else if seen then some (acc, c :: cs) else none
    | none => if seen then some (acc, c :: cs) else none

/-- A quoted text, after its opening quote: any characters but a double quote, perhaps none (DESIGN CHOICE,
notes/assumptions/14.md). -/
def readText : List Char → List Char → Option (AsmOperand × List Char)
  | [], _ => none
  | c :: cs, acc => if c = '"' then some (.text acc.reverse, cs) else readText cs (c :: acc)

/-- One operand: `decimal | '-' decimal | '0x' hex | "'" char "'"`, or a text (R89, R90). A character stands for its code, which
is its byte value up to 255; above that R89 gives it no value (DESIGN CHOICE, notes/assumptions/14.md). -/
def readOperand : List Char → Option (AsmOperand × List Char)
  | '\'' :: c :: '\'' :: cs => some (.num c.toNat, cs)
  | '"' :: cs => readText cs []
  | '-' :: cs => (readDigits 10 cs 0 false).map fun r => (.num (-(r.1 : Int)), r.2)
  | '0' :: 'x' :: cs => (readDigits 16 cs 0 false).map fun r => (.num r.1, r.2)
  | cs => (readDigits 10 cs 0 false).map fun r => (.num r.1, r.2)

/-- The operands of a line, separated by commas, up to its end or its comment. `fuel` bounds their number. -/
def readOperands : Nat → List Char → Option (List AsmOperand)
  | 0, _ => none
  | fuel + 1, cs =>
    match readOperand (skipBlanks cs) with
    | none => none
    | some (o, rest) =>
      match skipBlanks rest with
      | [] => some [o]
      | ';' :: _ => some [o]
      | ',' :: rest' => (readOperands fuel rest').map (o :: ·)
      | _ => none

/-- The command part of a line: its name and its operands. -/
def readCommand (cs : List Char) : Option (String × List AsmOperand) :=
  let name := cs.takeWhile isNameChar
  match name, skipBlanks (cs.dropWhile isNameChar) with
  | [], _ => none
  | _ :: _, [] => some (String.ofList name, [])
  | _ :: _, ';' :: _ => some (String.ofList name, [])
  | _ :: _, c :: rest => (readOperands (rest.length + 1) (c :: rest)).map fun ops => (String.ofList name, ops)

/-- A line without its label: `[label ':']` is dropped, since the block has no branches (R89, 00_scope.md R7). R89 does not
define `label`; that it is any run of the characters of a name, the empty run too, is the model's choice (DESIGN CHOICE,
notes/assumptions/14.md). -/
def dropLabel (cs : List Char) : List Char :=
  match skipBlanks (cs.dropWhile isNameChar) with
  | ':' :: rest => skipBlanks rest
  | _ => cs

/-- One line of command text: the words it stands for (R89, R90). A line with no command is rejected (DESIGN CHOICE,
notes/assumptions/14.md). -/
def assembleLine (line : String) : Except AsmError (List CmdWord) :=
  match readCommand (dropLabel (skipBlanks line.toList)) with
  | none => .error .badSyntax
  | some (name, ops) => assemble name ops

end Sys2Proof.Machine
end

