-- ==== Sys2Proof/Safety.lean ====
section
/-! DEFINITION. What counts as a safe run, and the vocabulary that statements about the machine use: running commands one
after another, the invariant of 10_state.md R35, a queue's contents, and the views of the state that the receive path, the
transmit path and the live memory elements give. Nothing here is part of a step. -/

namespace Sys2Proof.Machine

/-- Commands executed one after another from a state, stopping at the first fault or refusal. -/
def execAll : List Instr → State → Host.Outcome State Fault Refusal
  | [], s => .next s
  | i :: is, s =>
    match exec i s with
    | .next t => execAll is t
    | .fault f => .fault f
    | .refused r => .refused r

/-- A step that goes on: no fault, no refusal. A host that never issues Q.PUT or Q.GET itself sees only such steps
(60_exceptions.md R303). -/
def goesOn (o : Host.Outcome State Fault Refusal) : Prop := ∃ t, o = .next t

/-- A command that writes a queue's cursor from outside the unit that owns it: the breach of the ownership discipline
that 70_reset_and_hazards.md R336 lets a model flag, "a diagnostic that stops nothing". -/
def breachesOwnership : Instr → Bool
  | .txqPut _ | .txqGet | .txqClear | .rxqPut _ | .rxqGet | .rxqClear => true
  | _ => false

/-- How many operations each unit has, unit 0 first: the rows of 30_encoding.md R83 are the pairs `(u, o)` with `o` below
the `u`-th entry. -/
def unitRows : List Nat := [12, 8, 3, 3, 6, 4, 8, 8]

/-- The five cases of 30_encoding.md R86, from the fields of the word alone. -/
def illegalWord (w : CmdWord) : Bool :=
  decide (8 ≤ (cmdUnit w).toNat) || decide (unitRows.getD (cmdUnit w).toNat 0 ≤ (cmdOp w).toNat) ||
  decide (cmdRsv w ≠ 0) ||
  (decide (cmdSel w ≠ 0) && !(decide (cmdUnit w = 0) && (decide (cmdOp w = 10) || decide (cmdOp w = 11)))) ||
  (decide (cmdUnit w = 0) && decide (cmdOp w = 10) && decide (9 ≤ (cmdSel w).toNat)) ||
  (decide (cmdUnit w = 0) && decide (cmdOp w = 11) && decide (10 ≤ (cmdSel w).toNat))

/-- The precondition of a direct queue command: there is room for a PUT, an item for a GET (70_reset_and_hazards.md R335).
Every other command has none. -/
def queueReady (i : Instr) (s : State) : Bool :=
  match i with
  | .txqPut _ => s.txq.canPut s.build.txqN
  | .txqGet => s.txq.canGet
  | .rxqPut _ => s.rxq.canPut s.build.rxqN
  | .rxqGet => s.rxq.canGet
  | _ => true

/-- The commands with no side effect (20_memory.md R68). -/
def isReadOnly : Instr → Bool
  | .txqCanPut | .txqCanGet | .txqCount | .txqNthFromPut _ | .txqNthFromGet _
  | .rxqCanPut | .rxqCanGet | .rxqCount | .rxqNthFromPut _ | .rxqNthFromGet _
  | .crcRead | .crcTableRead _ | .facNop | .facDecodeGetMessage | .facRxmsgRead _ | .facCfgRead _ => true
  | _ => false

/-- Everything the block holds and has put out is the same: only the ports, the port order, the reset input and the
latched command may differ. -/
def SameBlock (s t : State) : Prop :=
  t.build = s.build ∧ t.cfg = s.cfg ∧ t.txq = s.txq ∧ t.rxq = s.rxq ∧ t.cr = s.cr ∧ t.dm = s.dm ∧ t.md = s.md ∧
  t.crcAcc = s.crcAcc ∧ t.fc = s.fc ∧ t.fac = s.fac ∧ t.byteOut = s.byteOut ∧ t.trace = s.trace

/-- The items a queue holds, the one the next GET returns first (40_queue.md R100). -/
def QueueRegs.items (n : Nat) (q : QueueRegs) : List Nat :=
  (List.range (q.count n)).map fun k => Memory.read q.slot ((q.get + k) % n)

/-- What a run of PUTs (`some d`, `d` the command's `DATA`) and GETs (`none`) on one queue answers when its GETs return `got`,
in order. -/
def queueWords : List (Option Data) → List Nat → List CmdWord
  | [], _ => []
  | some _ :: ops, got => (respond true 0).word :: queueWords ops got
  | none :: ops, g :: got => (respond true (zext32 g)).word :: queueWords ops got
  | none :: ops, [] => queueWords ops []

/-- `s` after symbols were presented to MD.ADD_SYMBOL: TXQ's new registers, and `failed` symbols that did not fit, each of
them an event (43_modulator.md R176). -/
def State.queued (s : State) (q : QueueRegs) (failed : Nat) : State :=
  { s with
    txq := q
    md := { s.md with txOverflow := s.md.txOverflow || decide (0 < failed) }
    trace := s.trace ++ List.replicate failed .txOverflow }

/-! ## The invariant -/

/-- 10_state.md R35 item 1 as ranges of the cursors (R25), and the slot memory in its canonical form inside its size. -/
structure QueueInv (n : Nat) (q : QueueRegs) : Prop where
  put_lt : q.put < n
  get_lt : q.get < n
  slot_wf : Memory.wf q.slot = true
  slot_bound : ∀ c ∈ q.slot, c.1 < n

/-- The items of a slot memory have `Q_ITEM_BITS` bits (10_state.md R25). -/
abbrev ItemInv (b : Build) (q : QueueRegs) : Prop := ∀ c ∈ q.slot, c.2 < 2 ^ b.qItemBits

/-- A sample of `SAMPLE_BITS` bits (20_memory.md R64; R27 writes 16: notes/assumptions/6.md). -/
abbrev SampleInv (b : Build) (x : Int) : Prop := -(2 ^ (b.sampleBits - 1)) ≤ x ∧ x < 2 ^ (b.sampleBits - 1)

/-- 10_state.md R35 items 2, 3 and 4, and the range of `CR.sps` (R26). -/
structure CrInv (b : Build) (c : CrRegs) : Prop where
  sps_range : 2 ≤ c.sps ∧ c.sps ≤ 65535
  edge_lt : ∀ e, c.edge = some e → e < c.sps
  hist_length : c.hist.length ≤ b.histN
  uninitialized_hist : c.edge = none → c.hist = []

/-- 10_state.md R35 item 9 and R27: the previous samples, the envelope registers, the window's length, the counter's
width. -/
structure DmInv (b : Build) (d : DmRegs) : Prop where
  x1_range : SampleInv b d.x1
  x2_range : SampleInv b d.x2
  x3_range : SampleInv b d.x3
  env_le : d.env ≤ 2 ^ 31
  hi_le : d.hi ≤ 2 ^ 31
  lo_le : d.lo ≤ 2 ^ 31
  win_length : d.win.length = b.majW
  cnt_lt : d.cnt < 2 ^ b.cntBits

/-- 10_state.md R35 item 8 and the ranges of R28. -/
structure MdInv (b : Build) (m : MdRegs) : Prop where
  sps_range : 2 ≤ m.sps ∧ m.sps ≤ 65535
  half_eq : m.half = m.sps / 2
  active_pos : m.active = true → m.symPos < m.sps
  idle_pos : m.active = false → m.symPos = 0 ∨ m.symPos = m.sps
  phase_lt : m.phase < 2 ^ b.phaseBits

/-- 10_state.md R35 items 5 and 6, the range of `FC.ones` (R30), and `FC.buf` in canonical form inside its size. -/
structure FcInv (b : Build) (f : FcRegs) : Prop where
  pos_le : f.pos ≤ b.maxFrameLen
  discard_pos : f.discard = true → f.pos = 0
  nbits_le : f.nbits ≤ 7
  ones_le : f.ones ≤ 4
  buf_wf : Memory.wf f.buf = true
  buf_bound : ∀ c ∈ f.buf, c.1 < b.maxFrameLen

/-- 10_state.md R35 item 7, the ranges of R31, and the two message memories in canonical form inside their sizes. -/
structure FacInv (b : Build) (f : FacRegs) : Prop where
  txLen_le : f.txLen ≤ b.txbufLen
  pendLen_le : f.pendLen ≤ b.pendLen
  nothing_pending : f.pendValid = false → f.pendLen = 0
  txbuf_wf : Memory.wf f.txbuf = true
  txbuf_bound : ∀ c ∈ f.txbuf, c.1 < b.txbufLen
  pend_wf : Memory.wf f.pend = true
  pend_bound : ∀ c ∈ f.pend, c.1 < b.pendLen

/-- The reserved bits of CFG4 to CFG8 read as zero (10_state.md R21, R22). -/
structure CfgInv (c : CfgRegs) : Prop where
  mode_reserved : c.mode &&& 0xFFFFFFFC = 0
  preamble_reserved : c.preambleLen &&& 0xFFFF0000 = 0
  postamble_reserved : c.postambleLen &&& 0xFFFF0000 = 0
  crTol_reserved : c.crTol &&& 0xFFFF0000 = 0
  crCw_reserved : c.crCw &&& 0xFFFF0000 = 0

/-- The invariant: 10_state.md R35 with the register ranges of R21 to R31, for a build that meets 00_scope.md R9. -/
structure Invariant (s : State) : Prop where
  build : s.build.valid = true
  cfg : CfgInv s.cfg
  txq : QueueInv s.build.txqN s.txq
  rxq : QueueInv s.build.rxqN s.rxq
  txq_items : ItemInv s.build s.txq
  rxq_items : ItemInv s.build s.rxq
  cr : CrInv s.build s.cr
  dm : DmInv s.build s.dm
  md : MdInv s.build s.md
  fc : FcInv s.build s.fc
  fac : FacInv s.build s.fac

/-! ## Procedures as the spec writes them

The meanings compute a frame's octets or bits first and then send them; these follow the pseudocode step by step, with the
registers and the locals it names. -/

/-- One bit shifted into a CRC, the polynomial subtracted when a one falls out (44_crc16.md R201, last sentence). -/
def crcBitIn (poly c : BitVec 16) (bit : Bool) : BitVec 16 :=
  if xor (c.getLsbD 15) bit then (c <<< 1) ^^^ poly else c <<< 1

/-- The bits of a byte, most significant first. -/
def bitsHighFirst (b : BitVec 8) : List Bool := (List.range 8).map fun i => b.getLsbD (7 - i)

/-- A send in progress: the block, and the locals `nOut` and `ok` (45_frame_codec.md R212). -/
structure Sending where
  block : State
  nOut : Nat
  ok : Bool
deriving DecidableEq, Repr

/-- `sendBit(v)` (45_frame_codec.md R212). -/
def Sending.bit (c : Sending) (v : Bool) : Sending :=
  { block := (mdAddSymbol v c.block).1, nOut := c.nOut + 1, ok := c.ok && (mdAddSymbol v c.block).2.v }

/-- `FC.ones <- n`. -/
def Sending.setOnes (c : Sending) (n : Nat) : Sending := { c with block := c.block.setFc { c.block.fc with ones := n } }

/-- One turn of `emitOctet`'s loop in bit mode (45_frame_codec.md R212). -/
def Sending.octetBit (isFlag : Bool) (c : Sending) (v : Bool) : Sending :=
  let c1 := c.bit v
  if isFlag then c1.setOnes 0
  else if v then
    let c2 := c1.setOnes (c1.block.fc.ones + 1)
    if c2.block.fc.ones = 5 then (c2.bit false).setOnes 0 else c2
  else c1.setOnes 0

/-- `emitOctet(o, isFlag, BITS)` (45_frame_codec.md R212). -/
def Sending.octetInBits (isFlag : Bool) (c : Sending) (o : BitVec 8) : Sending :=
  [o.getLsbD 0, o.getLsbD 1, o.getLsbD 2, o.getLsbD 3, o.getLsbD 4, o.getLsbD 5, o.getLsbD 6, o.getLsbD 7].foldl
    (Sending.octetBit isFlag) c

/-- `emitOctet(o, isFlag, BYTES)` (45_frame_codec.md R212). -/
def Sending.octetInBytes (_isFlag : Bool) (c : Sending) (o : BitVec 8) : Sending :=
  { c with block := c.block.emit [o], nOut := c.nOut + 1 }

/-- The loop of `sendFrame` over the payload: each byte is folded into the CRC and its escaped octets are emitted
(45_frame_codec.md R224). -/
def Sending.payload (emit : Bool → Sending → BitVec 8 → Sending) (poly : BitVec 16) :
    List (BitVec 8) → Sending → BitVec 16 → Sending × BitVec 16
  | [], c, crc => (c, crc)
  | b :: bs, c, crc => Sending.payload emit poly bs ((escapeByte b).foldl (emit false) c) (crcUpd poly crc b)

/-- `sendFrame(mode)`, with `emitOctet` of the mode (45_frame_codec.md R224). -/
def Sending.frame (emit : Bool → Sending → BitVec 8 → Sending) (c : Sending) : Sending :=
  let c0 := emit true (c.setOnes 0) flagOctet
  let r := Sending.payload emit c.block.build.crcPoly c.block.txPayload c0 0xFFFF
  let first : BitVec 8 := if c.block.fc.crcBE then r.2.extractLsb' 8 8 else r.2.extractLsb' 0 8
  let second : BitVec 8 := if c.block.fc.crcBE then r.2.extractLsb' 0 8 else r.2.extractLsb' 8 8
  let c1 := (escapeByte first).foldl (emit false) r.1
  let c2 := (escapeByte second).foldl (emit false) c1
  emit true c2 flagOctet

/-- Bits fed one by one to `rxBit`: the block after them and the flags of each, in order (45_frame_codec.md R221). -/
def feedBits : List Bool → State → State × List RxFlags
  | [], s => (s, [])
  | b :: bs, s => ((feedBits bs (fcRxBit b s).1).1, (fcRxBit b s).2 :: (feedBits bs (fcRxBit b s).1).2)

/-- The transitions of a jitter-free Manchester stream after a centre transition at `c`: for each later symbol its centre,
one symbol further, and before it a boundary transition midway where the list says so. Each comes with whether it is a
centre (41_clock_recovery.md R130). -/
def manchesterStream (sps : Nat) : Nat → List Bool → List (Nat × Bool)
  | _, [] => []
  | c, false :: bs => (c + sps, true) :: manchesterStream sps (c + sps) bs
  | c, true :: bs => (c + sps / 2, false) :: (c + sps, true) :: manchesterStream sps (c + sps) bs

/-! ## Views -/

/-- What the receive path holds: the demodulator, clock recovery, RXQ, the receive parser and the pending message
(46_facade.md R265). `FC.ones` belongs to the send path; `FAC.cfgErr` and CFG are shared. -/
structure RxView where
  build : Build
  rxq : QueueRegs
  cr : CrRegs
  dm : DmRegs
  fc : FcRegs
  pendValid : Bool
  pendLen : Nat
  pend : List Host.Cell
deriving DecidableEq, Repr

/-- The receive path's part of a state. -/
def State.rxView (s : State) : RxView where
  build := s.build
  rxq := s.rxq
  cr := s.cr
  dm := s.dm
  fc := { s.fc with ones := 0 }
  pendValid := s.fac.pendValid
  pendLen := s.fac.pendLen
  pend := s.fac.pend

/-- What the transmit path holds: the modulator, TXQ, the stuffing counter, the staging buffer and BYTE_OUT. -/
structure TxView where
  build : Build
  txq : QueueRegs
  md : MdRegs
  ones : Nat
  txbuf : List Host.Cell
  txLen : Nat
  byteOut : List (BitVec 8)
deriving DecidableEq, Repr

/-- The transmit path's part of a state. -/
def State.txView (s : State) : TxView where
  build := s.build
  txq := s.txq
  md := s.md
  ones := s.fc.ones
  txbuf := s.fac.txbuf
  txLen := s.fac.txLen
  byteOut := s.byteOut

/-- The commands of the transmit path: staging, framing, queueing and sample output. -/
def isTransmit : Instr → Bool
  | .facEncodeMessage | .facEncodeGetSample | .facTxbufClear | .facTxbufPush _
  | .mdSetup | .mdClear | .mdSetPreamble _ | .mdSetPostamble _ | .mdAddPreamble | .mdAddPostamble | .mdAddSymbol _
  | .mdGetSample | .fcSendFrameBytes | .fcSendFrameBits
  | .txqCanPut | .txqPut _ | .txqCanGet | .txqGet | .txqClear | .txqCount | .txqNthFromPut _ | .txqNthFromGet _ => true
  | _ => false

/-- The commands of the receive path: samples in, transitions, octets and bits in, and the pending message. The SETUP
commands read CFG and are not among them. -/
def isReceive : Instr → Bool
  | .facDecodeProcessSample _ | .facDecodeGetMessage | .facDecodeClearMessage | .facRxmsgRead _
  | .dmClear | .dmProcessSample _ | .crClear | .crTransition _ | .fcRxByte _ | .fcRxBit _
  | .rxqCanPut | .rxqPut _ | .rxqCanGet | .rxqGet | .rxqClear | .rxqCount | .rxqNthFromPut _ | .rxqNthFromGet _ => true
  | _ => false

/-- Two states that differ at most in memory elements that hold nothing live: slots outside `get .. put`, frame bytes at
or past `FC.pos`, staged bytes at or past `FAC.txLen`, message bytes at or past `FAC.pendLen` (10_state.md R34). -/
structure LiveEq (s s' : State) : Prop where
  rest : s' = { s with
    txq := { s.txq with slot := s'.txq.slot }
    rxq := { s.rxq with slot := s'.rxq.slot }
    fc := { s.fc with buf := s'.fc.buf }
    fac := { s.fac with txbuf := s'.fac.txbuf, pend := s'.fac.pend } }
  txq : s'.txq.items s.build.txqN = s.txq.items s.build.txqN
  rxq : s'.rxq.items s.build.rxqN = s.rxq.items s.build.rxqN
  buf : Memory.firstN s'.fc.buf s.fc.pos = Memory.firstN s.fc.buf s.fc.pos
  txbuf : Memory.firstN s'.fac.txbuf s.fac.txLen = Memory.firstN s.fac.txbuf s.fac.txLen
  pend : Memory.firstN s'.fac.pend s.fac.pendLen = Memory.firstN s.fac.pend s.fac.pendLen

/-- Clock recovery is locked on the edge `e`: it is tracking, its estimate is `e`, and every record of the history lies at
the symbol centre, `floor(CR.sps / 2)` samples past it (41_clock_recovery.md R130). -/
structure CrLocked (c : CrRegs) (e : Nat) : Prop where
  valid : c.lastValid = true
  edge : c.edge = some e
  edge_lt : e < c.sps
  centred : ∀ r ∈ c.hist, c.pos e r.t = c.sps / 2

end Sys2Proof.Machine
end

