-- ==== Sys2Proof/Certificates/Slice0/Obligations.lean ====
section
/-! DEFINITION. The statements for the provers: encoding, a step, the queues, the CRC unit, the frame codec, the modulator,
clock recovery, the demodulator and the facade. Each names the rules of spec/ it formalises. `s.reply r` is `s` with the
response `r` returned on the port that issued the command, and nothing else changed. -/

section

open Sys2Proof Sys2Proof.Machine

/-! ## Encoding -/

/-- 30_encoding.md R80, R83, R85, R88: the decoder reads back every command from its word, every operand at every value. -/
def Obligations.DecodeReadsEveryEncodedCommand : Prop := ∀ i : Instr, decode (encode i) = .ok i

/-- 30_encoding.md R85, R87: a decoded word is the encoded command in every bit that the decoder keeps, and no bit of `DATA`
that a command does not read changes what the command does. The bits read are those R83 lists, for a queue item the
`Q_ITEM_BITS` of 40_queue.md R102, with one model's reading: R64, R83 and R85 write `DATA[15:0]` for a sample, and that the
field has `SAMPLE_BITS` bits in every build (00_scope.md R8), and is all of `DATA` where that exceeds 32, is the model's
(notes/assumptions/6.md); a queue item wider than `DATA` is the model's choice (notes/assumptions/5.md). By default a sample is
`DATA[15:0]` and an item `DATA[0]`, as R83 and R85 say. -/
def Obligations.DecodingIgnoresUnreadData : Prop :=
  (∀ (w : CmdWord) (i : Instr), decode w = .ok i →
    encode i = cmdWord (cmdUnit w) (cmdOp w) (cmdSel w) (cmdData w &&& dataMask i) ∧
    (∀ d : Data, d &&& dataMask i = cmdData w &&& dataMask i →
      decode (cmdWord (cmdUnit w) (cmdOp w) (cmdSel w) d) = .ok i) ∧
    ∀ (s : State) (d : Data), d &&& readMask s.build i = cmdData w &&& readMask s.build i →
      ∃ j, decode (cmdWord (cmdUnit w) (cmdOp w) (cmdSel w) d) = .ok j ∧ exec j s = exec i s) ∧
  ∀ d : Data, readMask {} (.facDecodeProcessSample d) = 0x0000FFFF ∧ readMask {} (.dmProcessSample d) = 0x0000FFFF ∧
    readMask {} (.txqPut d) = 0x00000001 ∧ readMask {} (.rxqPut d) = 0x00000001

/-- 30_encoding.md R86: exactly the five cases are illegal. An illegal command changes nothing and answers
`V = 0, ILL = 1, RDATA = 0`; every other word is a well-formed command of the table, and that command runs. -/
def Obligations.IllegalWordsAnswerIll : Prop :=
  ∀ s : State,
    (illegalWord s.cmdReg = true → runCommand s = .next (s.reply respondIllegal)) ∧
    (illegalWord s.cmdReg = false →
      ∃ i, decode s.cmdReg = .ok i ∧ i.wellFormed = true ∧ runCommand s = exec i s) ∧
    respondIllegal.word = 0x4000000000000000

/-- 30_encoding.md R89 and the examples of the commands' rules: words written out by the spec decode to the commands it
gives them. -/
def Obligations.WrittenOutWordsDecode : Prop :=
  decode 0x0100000000000000 = .ok .facSetup ∧
  decode 0x6100000000000001 = .ok (.txqPut 1) ∧
  decode 0x0A05000000000014 = .ok (.facCfgWrite 5 20) ∧
  decode 0x04000000FFFFFE6E = .ok (.facDecodeProcessSample 0xFFFFFE6E) ∧
  decode 0x1200000000000008 = .ok (.mdSetPreamble 8) ∧
  decode 0x2200000000004000 = .ok (.dmProcessSample 0x4000) ∧
  decode 0x32000000000000B4 = .ok (.crTransition 180) ∧
  decode 0x4300000000000000 = .ok .fcSendFrameBits ∧
  decode 0x5100000000000041 = .ok (.crcUpdate 0x41) ∧
  decode 0x7200000000000000 = .ok .rxqCanGet

/-! ## A step -/

/-- 30_encoding.md R86, R88, 20_memory.md R67: when the next command of the port that is served decodes to `i`, the step is
`exec i` on the block as it was; when it does not decode, the step answers `ILL = 1` on that port and the block is as it was.
That the command is taken from a list of pending commands and kept in `cmdReg` and `serving` while it runs, and that
`portOrder` is a list, is the model's choice (notes/assumptions/1.md, 2.md, 7.md). -/
def Obligations.StepRunsTheDecodedCommand : Prop :=
  ∀ (s : State) (p : Port) (order : List Port),
    s.build.valid = true → s.resetIn = .off → s.nextPort = some (p, order) →
      (∀ i, decode ((s.port p).pending.headD 0) = .ok i → step s = exec i (s.accept p order)) ∧
      (∀ e, decode ((s.port p).pending.headD 0) = .error e →
        step s = .next ((s.accept p order).reply respondIllegal)) ∧
      SameBlock s (s.accept p order) ∧
      (s.accept p order).cmdReg = (s.port p).pending.headD 0 ∧
      (s.accept p order).serving = p ∧
      (s.accept p order).port p = { pending := (s.port p).pending.tail, responses := (s.port p).responses } ∧
      (∀ q, q ≠ p → (s.accept p order).port q = s.port q) ∧
      (s.accept p order).portOrder = order ∧ (s.accept p order).resetIn = .off

/-- 20_memory.md R69, 60_exceptions.md R306: with no command the block waits; a command alone is served; of two pending
commands either may go first, as `portOrder` says, and the tick port's when it says nothing. That the order is a list
in the state is the model's choice (notes/assumptions/2.md). -/
def Obligations.PortsAreServedOneCommandAtATime : Prop :=
  ∀ s : State, s.build.valid = true → s.resetIn = .off →
    (s.portT.pending = [] → s.portA.pending = [] → step s = .next s) ∧
    (s.portT.pending ≠ [] → s.portA.pending = [] → s.nextPort = some (.tick, s.portOrder)) ∧
    (s.portT.pending = [] → s.portA.pending ≠ [] → s.nextPort = some (.app, s.portOrder)) ∧
    (s.portT.pending ≠ [] → s.portA.pending ≠ [] → s.portOrder = [] → s.nextPort = some (.tick, [])) ∧
    ∀ p ps, s.portT.pending ≠ [] → s.portA.pending ≠ [] → s.portOrder = p :: ps → s.nextPort = some (p, ps)

/-- 70_reset_and_hazards.md R331: reset leaves the reset state, and a command in progress is abandoned without a response.
The model's choice: the ports keep what they hold and the reset input is released after the one step
(notes/assumptions/3.md), and the five memories list nothing after reset, where the spec leaves their contents unspecified
(notes/assumptions/4.md). The model's reading: CRC.acc is `CRC_INIT` after reset in every build, as R332 with 44_crc16.md R202
gives it, where R29 and R330 write its default `0xFFFF` (notes/assumptions/13.md). -/
def Obligations.ResetInputReachesResetState : Prop :=
  ∀ s : State, s.build.valid = true →
    (s.resetIn = .betweenCommands →
      ∃ t, step s = .next t ∧ SameBlock (State.resetOf s.build) t ∧ t.portT = s.portT ∧ t.portA = s.portA ∧
        t.resetIn = .off) ∧
    (s.resetIn = .duringCommand → s.nextPort = none →
      ∃ t, step s = .next t ∧ SameBlock (State.resetOf s.build) t ∧ t.portT = s.portT ∧ t.portA = s.portA ∧
        t.resetIn = .off) ∧
    (∀ p order, s.resetIn = .duringCommand → s.nextPort = some (p, order) →
      ∃ t, step s = .next t ∧ SameBlock (State.resetOf s.build) t ∧
        t.port p = { pending := (s.port p).pending.tail, responses := (s.port p).responses } ∧
        (∀ q, q ≠ p → t.port q = s.port q) ∧ t.resetIn = .off)

/-- 70_reset_and_hazards.md R330: the value of every register after reset. -/
def Obligations.ResetStateValues : Prop :=
  State.reset.cfg = ⟨8000, 100, 1000, 2000, 0x3, 20, 5, 0x6E5A, 0x4B19⟩ ∧
  State.reset.status = 0 ∧
  State.reset.txq.put = 0 ∧ State.reset.txq.get = 0 ∧ State.reset.rxq.put = 0 ∧ State.reset.rxq.get = 0 ∧
  State.reset.cr = ⟨80, 90, 110, 25, 75, none, false, 0, [], 80⟩ ∧
  State.reset.dm = ⟨true, 0, 0, 0, 0, 0, 0, 0, 0, 0, [false, false, false], false, 0⟩ ∧
  State.reset.md = ⟨80, 40, 0x20000000, 0x40000000, true, 0, 0, false, 0, false, false⟩ ∧
  State.reset.crcAcc = 0xFFFF ∧
  State.reset.fc.crcBE = true ∧ State.reset.fc.pos = 0 ∧ State.reset.fc.rxCrc = 0xFFFF ∧
  State.reset.fc.inEsc = false ∧ State.reset.fc.discard = false ∧ State.reset.fc.sr = 0 ∧ State.reset.fc.acc = 0 ∧
  State.reset.fc.nbits = 0 ∧ State.reset.fc.ones = 0 ∧
  State.reset.fac.txLen = 0 ∧ State.reset.fac.pendValid = false ∧ State.reset.fac.pendLen = 0 ∧
  State.reset.fac.cfgErr = false ∧
  State.reset.byteOut = [] ∧ State.reset.trace = []

/-- 10_state.md R35, "from reset on": the invariant holds after reset. What it has beside R35's nine items is the model's
(notes/assumptions/4.md, 6.md). -/
def Obligations.ResetStateIsConsistent : Prop := Invariant State.reset

/-- 10_state.md R35: every step keeps the invariant, whatever the command, the port and the reset input. Beside R35's nine items
the invariant has what the model adds to them: the ranges of the registers' tables (R25 to R31), the canonical form of the
memories (notes/assumptions/4.md), and the previous samples' range by `SAMPLE_BITS`, where R27 writes 16: the model's reading
(notes/assumptions/6.md). -/
def Obligations.EveryStepKeepsTheInvariant : Prop :=
  ∀ s t : State, Invariant s → step s = .next t → Invariant t

/-- 30_encoding.md R81, 60_exceptions.md R300 and R306: every command that meets its queue precondition ends with exactly one
response, appended on the port that issued it; the response has the format of R81, and only an ill-formed command answers
`ILL = 1`. Nothing else of the ports changes. That `portOrder`, `serving` and `cmdReg` are fields of the state is the model's
choice (notes/assumptions/2.md, 7.md). -/
def Obligations.EveryCommandEndsWithOneResponse : Prop :=
  ∀ (i : Instr) (s : State), queueReady i s = true →
    ∃ (t : State) (w : CmdWord), exec i s = .next t ∧
      t.port s.serving =
        { pending := (s.port s.serving).pending, responses := (s.port s.serving).responses ++ [w] } ∧
      (∀ p, p ≠ s.serving → t.port p = s.port p) ∧
      t.build = s.build ∧ t.portOrder = s.portOrder ∧ t.resetIn = s.resetIn ∧ t.serving = s.serving ∧
      t.cmdReg = s.cmdReg ∧
      w.extractLsb' 32 30 = 0 ∧
      (w.getLsbD 63 = false → w.extractLsb' 0 32 = 0) ∧
      (w.getLsbD 62 = true ↔ i.wellFormed = false) ∧
      (w.getLsbD 62 = true → w = 0x4000000000000000)

/-- 60_exceptions.md R303: QueuePutFull and QueueGetEmpty are raised by a direct PUT on a full queue and a direct GET on an
empty one, with the command word and its port, before anything is written; a PUT with room, a GET with an item and every
other command go on. -/
def Obligations.OnlyUncheckedQueueCommandsFault : Prop :=
  (∀ (s : State) (d : Data), (s.txq.put + 1) % s.build.txqN = s.txq.get →
    exec (.txqPut d) s = .fault (.queuePutFull s.cmdReg s.serving)) ∧
  (∀ (s : State) (d : Data), (s.rxq.put + 1) % s.build.rxqN = s.rxq.get →
    exec (.rxqPut d) s = .fault (.queuePutFull s.cmdReg s.serving)) ∧
  (∀ s : State, s.txq.put = s.txq.get → exec .txqGet s = .fault (.queueGetEmpty s.cmdReg s.serving)) ∧
  (∀ s : State, s.rxq.put = s.rxq.get → exec .rxqGet s = .fault (.queueGetEmpty s.cmdReg s.serving)) ∧
  (∀ (s : State) (d : Data), (s.txq.put + 1) % s.build.txqN ≠ s.txq.get → goesOn (exec (.txqPut d) s)) ∧
  (∀ (s : State) (d : Data), (s.rxq.put + 1) % s.build.rxqN ≠ s.rxq.get → goesOn (exec (.rxqPut d) s)) ∧
  (∀ s : State, s.txq.put ≠ s.txq.get → goesOn (exec .txqGet s)) ∧
  (∀ s : State, s.rxq.put ≠ s.rxq.get → goesOn (exec .rxqGet s)) ∧
  (∀ (s : State) (i : Instr), (∀ d, i ≠ .txqPut d) → (∀ d, i ≠ .rxqPut d) → i ≠ .txqGet → i ≠ .rxqGet →
    goesOn (exec i s)) ∧
  (∀ s : State, s.build.valid = true → ¬ goesOn (step s) →
    ∃ p order w, s.resetIn = .off ∧ s.nextPort = some (p, order) ∧ w = (s.port p).pending.headD 0 ∧
      ((step s = .fault (.queuePutFull w p) ∧
          (((∃ d, decode w = .ok (.txqPut d)) ∧ (s.txq.put + 1) % s.build.txqN = s.txq.get) ∨
            ((∃ d, decode w = .ok (.rxqPut d)) ∧ (s.rxq.put + 1) % s.build.rxqN = s.rxq.get))) ∨
        (step s = .fault (.queueGetEmpty w p) ∧
          ((decode w = .ok .txqGet ∧ s.txq.put = s.txq.get) ∨ (decode w = .ok .rxqGet ∧ s.rxq.put = s.rxq.get))))) ∧
  (∀ (w : CmdWord) (p : Port), (Fault.queuePutFull w p).code = 1 ∧ (Fault.queueGetEmpty w p).code = 2)

/-! ## The queues -/

/-- 40_queue.md R101, R103, R106: CAN_PUT, CAN_GET and COUNT report and change nothing; COUNT is the non-negative remainder
and stays below the slot count.
An answer above 32 bits, which only a build with larger sizes than the default can give, is its low 32 bits: that is the
model's choice (notes/assumptions/20.md). -/
def Obligations.QueueObserversReportOccupancy : Prop :=
  ∀ (s : State) (d : Data),
    decode (cmdWord 6 0 0 d) = .ok .txqCanPut ∧ decode (cmdWord 7 0 0 d) = .ok .rxqCanPut ∧
    decode (cmdWord 6 2 0 d) = .ok .txqCanGet ∧ decode (cmdWord 7 2 0 d) = .ok .rxqCanGet ∧
    decode (cmdWord 6 5 0 d) = .ok .txqCount ∧ decode (cmdWord 7 5 0 d) = .ok .rxqCount ∧
    exec .txqCanPut s =
      .next (s.reply (respond true (if (s.txq.put + 1) % s.build.txqN ≠ s.txq.get then 1 else 0))) ∧
    exec .rxqCanPut s =
      .next (s.reply (respond true (if (s.rxq.put + 1) % s.build.rxqN ≠ s.rxq.get then 1 else 0))) ∧
    exec .txqCanGet s = .next (s.reply (respond true (if s.txq.put ≠ s.txq.get then 1 else 0))) ∧
    exec .rxqCanGet s = .next (s.reply (respond true (if s.rxq.put ≠ s.rxq.get then 1 else 0))) ∧
    (0 < s.build.txqN → exec .txqCount s =
      .next (s.reply (respond true (BitVec.ofInt 32 (((s.txq.put : Int) - s.txq.get) % (s.build.txqN : Int)))))) ∧
    (0 < s.build.rxqN → exec .rxqCount s =
      .next (s.reply (respond true (BitVec.ofInt 32 (((s.rxq.put : Int) - s.rxq.get) % (s.build.rxqN : Int)))))) ∧
    (0 < s.build.txqN → s.txq.count s.build.txqN ≤ s.build.txqN - 1) ∧
    (0 < s.build.rxqN → s.rxq.count s.build.rxqN ≤ s.build.rxqN - 1)

/-- 40_queue.md R102: PUT stores the item in slot `put` and advances `put` modulo `N`, or faults on a full queue; no other
slot, register or memory changes. The item is the field `DATA[Q_ITEM_BITS-1:0]`, by default `DATA[0]` alone.
A field of more bits than `DATA` has is `DATA` with zeros above it: that is the model's choice (notes/assumptions/5.md). -/
def Obligations.QueuePutStoresAtTheTail : Prop :=
  ∀ (s : State) (d : Data),
    decode (cmdWord 6 1 0 d) = .ok (.txqPut d) ∧
    decode (cmdWord 7 1 0 d) = .ok (.rxqPut d) ∧
    (s.build.qItemBits = 1 → d.toNat % 2 ^ s.build.qItemBits = (d.getLsbD 0).toNat) ∧ ({} : Build).qItemBits = 1 ∧
    (Memory.wf s.txq.slot = true → (s.txq.put + 1) % s.build.txqN ≠ s.txq.get →
      ∃ slot, exec (.txqPut d) s =
          .next ((s.setTxq ⟨(s.txq.put + 1) % s.build.txqN, s.txq.get, slot⟩).reply (respond true 0)) ∧
        Memory.read slot s.txq.put = d.toNat % 2 ^ s.build.qItemBits ∧
        ∀ j, j ≠ s.txq.put → Memory.read slot j = Memory.read s.txq.slot j) ∧
    (Memory.wf s.rxq.slot = true → (s.rxq.put + 1) % s.build.rxqN ≠ s.rxq.get →
      ∃ slot, exec (.rxqPut d) s =
          .next ((s.setRxq ⟨(s.rxq.put + 1) % s.build.rxqN, s.rxq.get, slot⟩).reply (respond true 0)) ∧
        Memory.read slot s.rxq.put = d.toNat % 2 ^ s.build.qItemBits ∧
        ∀ j, j ≠ s.rxq.put → Memory.read slot j = Memory.read s.rxq.slot j) ∧
    ((s.txq.put + 1) % s.build.txqN = s.txq.get →
      exec (.txqPut d) s = .fault (.queuePutFull s.cmdReg s.serving)) ∧
    ((s.rxq.put + 1) % s.build.rxqN = s.rxq.get →
      exec (.rxqPut d) s = .fault (.queuePutFull s.cmdReg s.serving))

/-- 40_queue.md R104: GET answers the item of slot `get` and advances `get` modulo `N`, or faults on an empty queue; no
memory changes.
An answer above 32 bits, which only a build with larger sizes than the default can give, is its low 32 bits: that is the
model's choice (notes/assumptions/20.md). -/
def Obligations.QueueGetRemovesTheHead : Prop :=
  ∀ (s : State) (d : Data),
    decode (cmdWord 6 3 0 d) = .ok .txqGet ∧ decode (cmdWord 7 3 0 d) = .ok .rxqGet ∧
    (s.txq.put ≠ s.txq.get →
      exec .txqGet s =
        .next ((s.setTxq ⟨s.txq.put, (s.txq.get + 1) % s.build.txqN, s.txq.slot⟩).reply
          (respond true (BitVec.ofNat 32 (Memory.read s.txq.slot s.txq.get))))) ∧
    (s.rxq.put ≠ s.rxq.get →
      exec .rxqGet s =
        .next ((s.setRxq ⟨s.rxq.put, (s.rxq.get + 1) % s.build.rxqN, s.rxq.slot⟩).reply
          (respond true (BitVec.ofNat 32 (Memory.read s.rxq.slot s.rxq.get))))) ∧
    (s.txq.put = s.txq.get → exec .txqGet s = .fault (.queueGetEmpty s.cmdReg s.serving)) ∧
    (s.rxq.put = s.rxq.get → exec .rxqGet s = .fault (.queueGetEmpty s.cmdReg s.serving))

/-- 40_queue.md R105: CLEAR sets both cursors to 0 and leaves the slots as they are. -/
def Obligations.QueueClearResetsBothCursors : Prop :=
  ∀ (s : State) (d : Data),
    decode (cmdWord 6 4 0 d) = .ok .txqClear ∧ decode (cmdWord 7 4 0 d) = .ok .rxqClear ∧
    exec .txqClear s = .next ((s.setTxq ⟨0, 0, s.txq.slot⟩).reply (respond true 0)) ∧
    exec .rxqClear s = .next ((s.setRxq ⟨0, 0, s.rxq.slot⟩).reply (respond true 0))

/-- 40_queue.md R107, R108: the NTH lookups answer `(put - 1 - n) mod N` and `(get + n) mod N` for `n` below the count, "invalid"
for any other, and change nothing.
An answer above 32 bits, which only a build with larger sizes than the default can give, is its low 32 bits: that is the
model's choice (notes/assumptions/20.md). -/
def Obligations.QueueLookupsNameTheSlot : Prop :=
  ∀ (s : State) (n : Data),
    decode (cmdWord 6 6 0 n) = .ok (.txqNthFromPut n) ∧ decode (cmdWord 7 6 0 n) = .ok (.rxqNthFromPut n) ∧
    decode (cmdWord 6 7 0 n) = .ok (.txqNthFromGet n) ∧ decode (cmdWord 7 7 0 n) = .ok (.rxqNthFromGet n) ∧
    (s.txq.count s.build.txqN ≤ n.toNat →
      exec (.txqNthFromPut n) s = .next (s.reply (respond false 0)) ∧
      exec (.txqNthFromGet n) s = .next (s.reply (respond false 0))) ∧
    (n.toNat < s.txq.count s.build.txqN →
      exec (.txqNthFromPut n) s = .next (s.reply (respond true
        (BitVec.ofInt 32 (((s.txq.put : Int) - 1 - n.toNat) % (s.build.txqN : Int))))) ∧
      exec (.txqNthFromGet n) s = .next (s.reply (respond true
        (BitVec.ofInt 32 (((s.txq.get : Int) + n.toNat) % (s.build.txqN : Int)))))) ∧
    (s.rxq.count s.build.rxqN ≤ n.toNat →
      exec (.rxqNthFromPut n) s = .next (s.reply (respond false 0)) ∧
      exec (.rxqNthFromGet n) s = .next (s.reply (respond false 0))) ∧
    (n.toNat < s.rxq.count s.build.rxqN →
      exec (.rxqNthFromPut n) s = .next (s.reply (respond true
        (BitVec.ofInt 32 (((s.rxq.put : Int) - 1 - n.toNat) % (s.build.rxqN : Int))))) ∧
      exec (.rxqNthFromGet n) s = .next (s.reply (respond true
        (BitVec.ofInt 32 (((s.rxq.get : Int) + n.toNat) % (s.build.rxqN : Int))))))

/-- 20_memory.md R72, 40_queue.md R110: over any run of direct PUTs and GETs that does not fault, what the GETs answer
followed by what is left is what was there followed by what the PUTs stored: nothing lost, repeated or reordered. A queue
of `N` slots takes an item exactly while it holds fewer than `N - 1`; after CLEAR it holds none.
Two edges are the model's choice: an item field of more bits than `DATA` has is `DATA` with zeros above it
(notes/assumptions/5.md), and an answer above 32 bits is its low 32 bits (notes/assumptions/20.md). -/
def Obligations.QueuesKeepFifoOrder : Prop :=
  (∀ (s t : State) (ops : List (Option Data)), QueueInv s.build.txqN s.txq →
    execAll (ops.map fun o => match o with | some d => .txqPut d | none => .txqGet) s = .next t →
    ∃ got : List Nat,
      s.txq.items s.build.txqN ++ (ops.filterMap id).map (fun d => d.toNat % 2 ^ s.build.qItemBits) = got ++ t.txq.items s.build.txqN ∧
      got.length = (ops.filter fun o => o.isNone).length ∧
      t = (s.setTxq t.txq).setPort s.serving
        { pending := (s.port s.serving).pending
          responses := (s.port s.serving).responses ++ queueWords ops got }) ∧
  (∀ (s t : State) (ops : List (Option Data)), QueueInv s.build.rxqN s.rxq →
    execAll (ops.map fun o => match o with | some d => .rxqPut d | none => .rxqGet) s = .next t →
    ∃ got : List Nat,
      s.rxq.items s.build.rxqN ++ (ops.filterMap id).map (fun d => d.toNat % 2 ^ s.build.qItemBits) = got ++ t.rxq.items s.build.rxqN ∧
      got.length = (ops.filter fun o => o.isNone).length ∧
      t = (s.setRxq t.rxq).setPort s.serving
        { pending := (s.port s.serving).pending
          responses := (s.port s.serving).responses ++ queueWords ops got }) ∧
  (∀ (n : Nat) (q : QueueRegs), QueueInv n q →
    (q.items n).length = q.count n ∧
    (q.canPut n = true ↔ (q.items n).length < n - 1) ∧
    (q.canGet = true ↔ q.items n ≠ []) ∧
    q.cleared.items n = [])

/-! ## The CRC unit -/

/-- 44_crc16.md R202, R203, R204, R205: the four commands of the CRC unit. Only `CRC.acc` changes, and only by INIT and
UPDATE. -/
def Obligations.CrcUnitCommands : Prop :=
  ∀ (s : State) (d : Data),
    decode (cmdWord 5 0 0 d) = .ok .crcInit ∧
    decode (cmdWord 5 1 0 d) = .ok (.crcUpdate (d.extractLsb' 0 8)) ∧
    decode (cmdWord 5 2 0 d) = .ok .crcRead ∧
    decode (cmdWord 5 3 0 d) = .ok (.crcTableRead (d.extractLsb' 0 8)) ∧
    exec .crcInit s = .next ((s.setCrcAcc s.build.crcInit).reply (respond true 0)) ∧
    (∀ b, exec (.crcUpdate b) s =
      .next ((s.setCrcAcc (crcUpd s.build.crcPoly s.crcAcc b)).reply
        (respond true ((crcUpd s.build.crcPoly s.crcAcc b).setWidth 32)))) ∧
    exec .crcRead s = .next (s.reply (respond true (s.crcAcc.setWidth 32))) ∧
    (∀ k, exec (.crcTableRead k) s = .next (s.reply (respond true ((crcTable s.build.crcPoly k).setWidth 32)))) ∧
    ({} : Build).crcInit = 0xFFFF ∧ ({} : Build).crcPoly = 0x1021

/-- 44_crc16.md R201, last sentence: the table update is the same as shifting the byte in one bit at a time, most significant
bit first, for every polynomial. -/
def Obligations.CrcUpdateIsTheBitSerialUpdate : Prop :=
  ∀ (poly c : BitVec 16) (b : BitVec 8), crcUpd poly c b = (bitsHighFirst b).foldl (crcBitIn poly) c

/-- 44_crc16.md R206, second property: the CRC of a byte string with its own CRC appended, high byte first, is 0, from any
start value; and the check value of R206. -/
def Obligations.CrcResidueIsZero : Prop :=
  (∀ (poly c0 : BitVec 16) (m : List (BitVec 8)),
    crcFold poly c0 (m ++ [(crcFold poly c0 m).extractLsb' 8 8, (crcFold poly c0 m).extractLsb' 0 8]) = 0) ∧
  crcFold 0x1021 0xFFFF [0x31, 0x32, 0x33, 0x34, 0x35, 0x36, 0x37, 0x38, 0x39] = 0x29B1

/-- 44_crc16.md R206, third property: with the polynomial `0x1021`, a change of any bits of one byte changes the CRC of the
string. -/
def Obligations.OneChangedByteChangesTheCrc : Prop :=
  ∀ (c0 : BitVec 16) (a b : List (BitVec 8)) (x y : BitVec 8), x ≠ y →
    crcFold 0x1021 c0 (a ++ [x] ++ b) ≠ crcFold 0x1021 c0 (a ++ [y] ++ b)

/-! ## The frame codec -/

/-- 45_frame_codec.md R211, R215 (with the procedure of R224 written out): FC.SEND_FRAME_BYTES puts the boundary, the escaped
payload, the two escaped CRC bytes in the configured order and the boundary on BYTE_OUT, answers their number and resets
`FC.ones`; nothing else changes.
An answer above 32 bits, which only a build with larger sizes than the default can give, is its low 32 bits: that is the
model's choice (notes/assumptions/20.md). -/
def Obligations.SendFrameBytesEmitsTheFrame : Prop :=
  ∀ (s : State) (d : Data),
    decode (cmdWord 4 2 0 d) = .ok .fcSendFrameBytes ∧
    ∃ (payload body : List (BitVec 8)) (c : BitVec 16),
      payload.length = s.fac.txLen ∧ (∀ k < s.fac.txLen, payload[k]? = some (Memory.read s.fac.txbuf k)) ∧
      c = crcFold s.build.crcPoly 0xFFFF payload ∧
      body = (payload ++ (if s.fc.crcBE then [c.extractLsb' 8 8, c.extractLsb' 0 8]
          else [c.extractLsb' 0 8, c.extractLsb' 8 8])).flatMap
        (fun b => if b = 0x7E ∨ b = 0x7D then [0x7D, b ^^^ 0x20] else [b]) ∧
      exec .fcSendFrameBytes s =
        .next (((s.setFc { s.fc with ones := 0 }).emit ([0x7E] ++ body ++ [0x7E])).reply
          (respond true (zext32 (body.length + 2))))

/-- 45_frame_codec.md R212, R224: sending a frame as the meanings do, octets or bits first and then out in order, is the same
as the octet by octet, bit by bit procedure with its running CRC and the register `FC.ones`, in both modes.
An answer above 32 bits, which only a build with larger sizes than the default can give, is its low 32 bits: that is the
model's choice (notes/assumptions/20.md). -/
def Obligations.SendFollowsTheOctetEmissionProcedure : Prop :=
  ∀ s : State,
    (fcSendFrameBytes s =
      ((Sending.frame Sending.octetInBytes ⟨s, 0, true⟩).block,
        respond true (zext32 (Sending.frame Sending.octetInBytes ⟨s, 0, true⟩).nOut))) ∧
    (fcSendFrameBits s =
      ((Sending.frame Sending.octetInBits ⟨s, 0, true⟩).block,
        respond (Sending.frame Sending.octetInBits ⟨s, 0, true⟩).ok
          (zext32 (Sending.frame Sending.octetInBits ⟨s, 0, true⟩).nOut)))

/-- 45_frame_codec.md R216: FC.SEND_FRAME_BITS queues the frame's bits in order as far as TXQ has room, answers their number
when all fit and `V = 0` otherwise; each bit that does not fit is a TX_OVERFLOW. Nothing but TXQ, `MD.txOverflow`, `FC.ones`
and the trace changes.
An answer above 32 bits, which only a build with larger sizes than the default can give, is its low 32 bits: that is the
model's choice (notes/assumptions/20.md). -/
def Obligations.SendFrameBitsQueuesTheFrame : Prop :=
  ∀ (s : State) (d : Data), QueueInv s.build.txqN s.txq →
    decode (cmdWord 4 3 0 d) = .ok .fcSendFrameBits ∧
    ∀ bits room, bits = frameBits s.build.crcPoly s.fc.crcBE s.txPayload →
      room = s.build.txqN - 1 - s.txq.count s.build.txqN →
      ∃ q, exec .fcSendFrameBits s =
          .next (((s.setFc { s.fc with ones := 0 }).queued q (bits.length - room)).reply
            (respond (decide (bits.length ≤ room)) (zext32 bits.length))) ∧
        QueueInv s.build.txqN q ∧
        q.items s.build.txqN = s.txq.items s.build.txqN ++ (bits.take room).map (symbolItem s.build)

/-- 45_frame_codec.md R211, R212, R223: escaping leaves no boundary octet inside a frame, and stuffing leaves no six ones in
a row between the boundaries; unescaping and de-stuffing lose nothing, so the encodings are injective. -/
def Obligations.FramesHoldNoFalseBoundary : Prop :=
  (∀ (poly : BitVec 16) (be : Bool) (m : List (BitVec 8)), (0x7E : BitVec 8) ∉ frameBody poly be m) ∧
  (∀ bits : List Bool, ¬ List.replicate 6 true <:+: (stuffBits 0 bits).1) ∧
  (∀ m m' : List (BitVec 8), m.flatMap escapeByte = m'.flatMap escapeByte → m = m') ∧
  (∀ bits bits' : List Bool, (stuffBits 0 bits).1 = (stuffBits 0 bits').1 → bits = bits')

/-- 45_frame_codec.md R213, R214: FC.SETUP loads the CRC byte order and clears the codec; FC.CLEAR keeps it. `FC.buf` keeps its
contents in both. -/
def Obligations.FrameCodecSetupAndClear : Prop :=
  ∀ (s : State) (d : Data),
    decode (cmdWord 4 0 0 d) = .ok .fcSetup ∧ decode (cmdWord 4 1 0 d) = .ok .fcClear ∧
    exec .fcSetup s =
      .next ((s.setFc ⟨s.cfg.mode.getLsbD 1, s.fc.buf, 0, 0xFFFF, false, false, 0, 0, 0, 0⟩).reply (respond true 0)) ∧
    exec .fcClear s =
      .next ((s.setFc ⟨s.fc.crcBE, s.fc.buf, 0, 0xFFFF, false, false, 0, 0, 0, 0⟩).reply (respond true 0))

/-- 45_frame_codec.md R218, R222 and 46_facade.md R263: a boundary octet. Fewer than 2 bytes deliver nothing; a CRC that does
not match is an event; a match is delivered, unless a message is pending: then the frame is dropped and the message kept.
In every case the frame registers are reset and nothing else changes. -/
def Obligations.BoundaryDeliversOrDiscards : Prop :=
  ∀ (s : State) (f : FcRegs) (rx : BitVec 16),
    f = { s.fc with pos := 0, rxCrc := 0xFFFF, inEsc := false, discard := false } →
    rx = (if s.fc.crcBE then Memory.read s.fc.buf (s.fc.pos - 2) ++ Memory.read s.fc.buf (s.fc.pos - 1)
      else Memory.read s.fc.buf (s.fc.pos - 1) ++ Memory.read s.fc.buf (s.fc.pos - 2)) →
    (s.fc.pos < 2 → exec (.fcRxByte 0x7E) s = .next ((s.setFc f).reply (respond true 0))) ∧
    (2 ≤ s.fc.pos → rx ≠ s.fc.rxCrc →
      exec (.fcRxByte 0x7E) s = .next (((s.event .crcMismatch).setFc f).reply (respond true 0x02))) ∧
    (2 ≤ s.fc.pos → rx = s.fc.rxCrc → s.fac.pendValid = true →
      exec (.fcRxByte 0x7E) s =
        .next ((((s.event .frameOk).event .msgDropped).setFc f).reply (respond true 0x09))) ∧
    (2 ≤ s.fc.pos → rx = s.fc.rxCrc → s.fac.pendValid = false → Memory.wf s.fac.pend = true →
      ∃ pend, exec (.fcRxByte 0x7E) s =
          .next ((((s.event .frameOk).setFac
            { s.fac with pendValid := true, pendLen := s.fc.pos - 2, pend := pend }).setFc f).reply
            (respond true 0x01)) ∧
        (∀ k < s.fc.pos - 2, Memory.read pend k = Memory.read s.fc.buf k) ∧
        ∀ k, s.fc.pos - 2 ≤ k → Memory.read pend k = Memory.read s.fac.pend k)

/-- 45_frame_codec.md R217, R219, R220: any other octet. While a frame is being discarded it is ignored; an escape toggles
`FC.inEsc`; else the octet, XORed with the mask after an escape, is stored and the byte two places behind is folded into the
CRC, or the frame is discarded when the buffer is full. Nothing else changes. -/
def Obligations.OtherOctetsAreUnescapedAndStored : Prop :=
  (∀ d : Data, decode (cmdWord 4 4 0 d) = .ok (.fcRxByte (d.extractLsb' 0 8))) ∧
  ∀ (s : State) (b x : BitVec 8), b ≠ 0x7E → x = (if s.fc.inEsc then b ^^^ 0x20 else b) →
    (s.fc.discard = true → exec (.fcRxByte b) s = .next (s.reply (respond true 0))) ∧
    (s.fc.discard = false → b = 0x7D →
      exec (.fcRxByte b) s = .next ((s.setFc { s.fc with inEsc := !s.fc.inEsc }).reply (respond true 0))) ∧
    (s.fc.discard = false → b ≠ 0x7D → s.fc.pos = s.build.maxFrameLen →
      exec (.fcRxByte b) s =
        .next (((s.setFc { s.fc with pos := 0, rxCrc := 0xFFFF, inEsc := false, discard := true }).event
          .oversize).reply (respond true 0x04))) ∧
    (s.fc.discard = false → b ≠ 0x7D → s.fc.pos ≠ s.build.maxFrameLen → Memory.wf s.fc.buf = true →
      ∃ buf, exec (.fcRxByte b) s =
          .next ((s.setFc { s.fc with
            buf := buf
            pos := s.fc.pos + 1
            rxCrc := if 2 ≤ s.fc.pos then crcUpd s.build.crcPoly s.fc.rxCrc (Memory.read s.fc.buf (s.fc.pos - 2))
              else s.fc.rxCrc
            inEsc := false }).reply (respond true 0x10)) ∧
        Memory.read buf s.fc.pos = x ∧
        ∀ k, k ≠ s.fc.pos → Memory.read buf k = Memory.read s.fc.buf k)

/-- 45_frame_codec.md R221: one received bit. It enters `FC.sr` at bit 7; the flag pattern is a boundary, five ones and a zero
are a stuffed bit, any other bit enters `FC.acc`, and every eighth goes to the byte parser as an octet. -/
def Obligations.ReceivedBitsFormOctets : Prop :=
  (∀ d : Data, decode (cmdWord 4 5 0 d) = .ok (.fcRxBit (d.getLsbD 0))) ∧
  ∀ (s : State) (bit : Bool) (sr acc : BitVec 8),
    sr = (s.fc.sr >>> 1) ||| (if bit then 0x80 else 0) →
    acc = (s.fc.acc >>> 1) ||| (if bit then 0x80 else 0) →
    (sr = 0x7E → ∀ r, r = fcRxByte 0x7E (s.setFc { s.fc with sr := sr }) →
      exec (.fcRxBit bit) s =
        .next ((r.1.setFc { r.1.fc with acc := 0, nbits := 0 }).reply (respond true (r.2.rdata ||| 0x20)))) ∧
    (sr ≠ 0x7E → sr &&& 0xFC = 0x7C →
      exec (.fcRxBit bit) s = .next ((s.setFc { s.fc with sr := sr }).reply (respond true 0x40))) ∧
    (sr ≠ 0x7E → sr &&& 0xFC ≠ 0x7C → s.fc.nbits ≠ 7 →
      exec (.fcRxBit bit) s =
        .next ((s.setFc { s.fc with sr := sr, acc := acc, nbits := s.fc.nbits + 1 }).reply (respond true 0))) ∧
    (sr ≠ 0x7E → sr &&& 0xFC ≠ 0x7C → s.fc.nbits = 7 →
      ∀ r, r = fcRxByte acc (s.setFc { s.fc with sr := sr, acc := acc, nbits := 8 }) →
        exec (.fcRxBit bit) s =
          .next ((r.1.setFc { r.1.fc with acc := 0, nbits := 0 }).reply (respond true (r.2.rdata ||| 0x80))))

/-- 45_frame_codec.md R223, byte mode: a frame that one block sends on BYTE_OUT, fed octet by octet to a receiver whose codec
is cleared, delivers exactly the staged payload, on the closing boundary and once. -/
def Obligations.ByteFramesRoundTrip : Prop :=
  ∀ (s u r : State), exec .fcSendFrameBytes s = .next u →
    s.build.crcPoly = r.build.crcPoly → s.fc.crcBE = r.fc.crcBE → s.fac.txLen + 2 ≤ r.build.maxFrameLen →
    r.fc.pos = 0 → r.fc.rxCrc = 0xFFFF → r.fc.inEsc = false → r.fc.discard = false →
    r.fac.pendValid = false → Memory.wf r.fc.buf = true → Memory.wf r.fac.pend = true →
    ∃ os : List (BitVec 8), u.byteOut = s.byteOut ++ os ∧
      (∃ t, execAll ((os.take (os.length - 1)).map Instr.fcRxByte) r = .next t ∧ t.fac = r.fac ∧ t.trace = r.trace) ∧
      ∃ t, execAll (os.map Instr.fcRxByte) r = .next t ∧
        t.fac.pendValid = true ∧ t.fac.pendLen = s.fac.txLen ∧
        Memory.firstN t.fac.pend s.fac.txLen = s.txPayload ∧
        t.trace = r.trace ++ [.frameOk] ∧
        t.fc = { r.fc with buf := t.fc.buf }

/-- 45_frame_codec.md R223, bit mode: the symbols that a frame adds to TXQ, fed in order to a receiver whose codec is cleared,
deliver exactly the staged payload, on the last bit and once. -/
def Obligations.BitFramesRoundTrip : Prop :=
  ∀ (s u r : State), exec .fcSendFrameBits s = .next u → QueueInv s.build.txqN s.txq →
    u.md.txOverflow = false →
    s.build.crcPoly = r.build.crcPoly → s.fc.crcBE = r.fc.crcBE → s.fac.txLen + 2 ≤ r.build.maxFrameLen →
    r.fc = r.fc.cleared →
    r.fac.pendValid = false → Memory.wf r.fc.buf = true → Memory.wf r.fac.pend = true →
    ∃ bits : List Bool, u.txq.items s.build.txqN = s.txq.items s.build.txqN ++ bits.map (symbolItem s.build) ∧
      (∃ t, execAll ((bits.take (bits.length - 1)).map Instr.fcRxBit) r = .next t ∧ t.fac = r.fac ∧
        t.trace = r.trace) ∧
      ∃ t, execAll (bits.map Instr.fcRxBit) r = .next t ∧
        t.fac.pendValid = true ∧ t.fac.pendLen = s.fac.txLen ∧
        Memory.firstN t.fac.pend s.fac.txLen = s.txPayload ∧
        t.trace = r.trace ++ [.frameOk]

/-- 44_crc16.md R206, third property, with 45_frame_codec.md R218: a frame in which one payload byte was changed after its
CRC was computed (any number of its bits) is discarded by the receiver: no message, one CRC_MISMATCH. -/
def Obligations.ChangedPayloadByteIsNotDelivered : Prop :=
  ∀ (r : State) (a b : List (BitVec 8)) (x y : BitVec 8), x ≠ y →
    r.build.crcPoly = 0x1021 → a.length + b.length + 3 ≤ r.build.maxFrameLen →
    r.fc.pos = 0 → r.fc.rxCrc = 0xFFFF → r.fc.inEsc = false → r.fc.discard = false → Memory.wf r.fc.buf = true →
    ∃ t, execAll
        (([flagOctet] ++
          (a ++ [y] ++ b ++ crcBytes r.fc.crcBE (crcFold 0x1021 0xFFFF (a ++ [x] ++ b))).flatMap escapeByte ++
          [flagOctet]).map Instr.fcRxByte) r = .next t ∧
      t.fac = r.fac ∧ t.trace = r.trace ++ [.crcMismatch]

/-! ## The modulator -/

/-- 43_modulator.md R171, R172: MD.SETUP loads rates, tuning words and coding from a valid CFG, clears the modulator and empties
TXQ; with an invalid CFG it sets `FAC.cfgErr` and changes nothing else. -/
def Obligations.ModulatorSetupLoadsTheConfiguration : Prop :=
  ∀ (s : State) (d : Data),
    decode (cmdWord 1 0 0 d) = .ok .mdSetup ∧
    (s.cfg.valid = true →
      exec .mdSetup s =
        .next ((((s.setCfgErr false).setMd
          { sps := s.cfg.sampleRate.toNat / s.cfg.symbolRate.toNat
            half := s.cfg.sampleRate.toNat / s.cfg.symbolRate.toNat / 2
            inc0 := BitVec.ofNat 32 (s.cfg.tone0.toNat * 2 ^ 32 / s.cfg.sampleRate.toNat)
            inc1 := BitVec.ofNat 32 (s.cfg.tone1.toNat * 2 ^ 32 / s.cfg.sampleRate.toNat)
            man := s.cfg.mode.getLsbD 0
            phase := 0, curInc := 0, active := false, symPos := 0, curBit := false, txOverflow := false }).setTxq
          ⟨0, 0, s.txq.slot⟩).reply (respond true 0))) ∧
    (s.cfg.valid = false → exec .mdSetup s = .next ((s.setCfgErr true).reply (respond false 0)))

/-- 43_modulator.md R173, R174, R175: MD.CLEAR idles the generator, empties TXQ and keeps the configuration; MD.SET_PREAMBLE
and MD.SET_POSTAMBLE write CFG5 and CFG6 and nothing else. -/
def Obligations.ModulatorClearAndLengths : Prop :=
  ∀ (s : State) (d : Data),
    decode (cmdWord 1 1 0 d) = .ok .mdClear ∧
    decode (cmdWord 1 2 0 d) = .ok (.mdSetPreamble (d.extractLsb' 0 16)) ∧
    decode (cmdWord 1 3 0 d) = .ok (.mdSetPostamble (d.extractLsb' 0 16)) ∧
    exec .mdClear s =
      .next (((s.setMd ⟨s.md.sps, s.md.half, s.md.inc0, s.md.inc1, s.md.man, 0, 0, false, 0, false, false⟩).setTxq
        ⟨0, 0, s.txq.slot⟩).reply (respond true 0)) ∧
    (∀ n, exec (.mdSetPreamble n) s =
      .next ((s.setCfg { s.cfg with preambleLen := n.setWidth 32 }).reply (respond true 0))) ∧
    (∀ n, exec (.mdSetPostamble n) s =
      .next ((s.setCfg { s.cfg with postambleLen := n.setWidth 32 }).reply (respond true 0)))

/-- 43_modulator.md R176: MD.ADD_SYMBOL queues one symbol at the tail of TXQ, or on a full TXQ sets `MD.txOverflow`, records
TX_OVERFLOW and answers `V = 0`. -/
def Obligations.AddSymbolQueuesOrReportsOverflow : Prop :=
  ∀ (s : State) (d : Data) (b : Bool),
    decode (cmdWord 1 6 0 d) = .ok (.mdAddSymbol (d.getLsbD 0)) ∧
    ((s.txq.put + 1) % s.build.txqN ≠ s.txq.get → Memory.wf s.txq.slot = true →
      ∃ slot, exec (.mdAddSymbol b) s =
          .next ((s.setTxq ⟨(s.txq.put + 1) % s.build.txqN, s.txq.get, slot⟩).reply (respond true 0)) ∧
        Memory.read slot s.txq.put = b.toNat % 2 ^ s.build.qItemBits ∧
        ∀ j, j ≠ s.txq.put → Memory.read slot j = Memory.read s.txq.slot j) ∧
    ((s.txq.put + 1) % s.build.txqN = s.txq.get →
      exec (.mdAddSymbol b) s =
        .next (((s.setMd { s.md with txOverflow := true }).event .txOverflow).reply (respond false 0)))

/-- 43_modulator.md R177, R178: ADD_PREAMBLE queues `CFG[5]` alternating symbols starting with 1, ADD_POSTAMBLE `CFG[6]` zeros,
in order and as far as TXQ has room; the answer is their number when all fit and `V = 0` otherwise. Nothing but TXQ,
`MD.txOverflow` and the trace changes. -/
def Obligations.PreambleAndPostambleAreQueued : Prop :=
  ∀ (s : State) (d : Data) (room : Nat), QueueInv s.build.txqN s.txq →
    room = s.build.txqN - 1 - s.txq.count s.build.txqN →
    decode (cmdWord 1 4 0 d) = .ok .mdAddPreamble ∧ decode (cmdWord 1 5 0 d) = .ok .mdAddPostamble ∧
    (∀ n, n = (s.cfg.preambleLen.extractLsb' 0 16).toNat →
      ∃ q, exec .mdAddPreamble s =
          .next ((s.queued q (n - room)).reply (respond (decide (n ≤ room)) (zext32 n))) ∧
        QueueInv s.build.txqN q ∧
        ∃ new : List Bool, q.items s.build.txqN = s.txq.items s.build.txqN ++ new.map (symbolItem s.build) ∧
          new.length = min n room ∧
          ∀ k < min n room, new[k]? = some (k % 2 == 0)) ∧
    (∀ n, n = (s.cfg.postambleLen.extractLsb' 0 16).toNat →
      ∃ q, exec .mdAddPostamble s =
          .next ((s.queued q (n - room)).reply (respond (decide (n ≤ room)) (zext32 n))) ∧
        QueueInv s.build.txqN q ∧
        q.items s.build.txqN = s.txq.items s.build.txqN ++ List.replicate (min n room) 0)

/-- 43_modulator.md R179, R180 and 46_facade.md R254: MD.GET_SAMPLE, and FAC.ENCODE_GET_SAMPLE as the same command. An idle
generator takes the next symbol of TXQ or answers "no sample"; a sample is the sine of the phase before it advances; the tone
switches at `MD.half` under Manchester coding; the last sample of a symbol idles the generator. Two clauses
are the model's choice: an item of TXQ that is neither 0 nor 1 sends tone 0 first, and the bit kept of it is a free value
(notes/assumptions/19.md); a phase register of fewer than 32 bits keeps the low `PHASE_BITS` bits of the phase
(notes/assumptions/6.md). -/
def Obligations.GetSampleEmitsThenAdvances : Prop :=
  ∀ (s : State) (d : Data),
    decode (cmdWord 1 7 0 d) = .ok .mdGetSample ∧ decode (cmdWord 0 3 0 d) = .ok .facEncodeGetSample ∧
    exec .facEncodeGetSample s = exec .mdGetSample s ∧
    (s.md.active = false → s.txq.put = s.txq.get → exec .mdGetSample s = .next (s.reply (respond false 0))) ∧
    (∀ inc, s.md.active = true →
      inc = (if s.md.man = true ∧ s.md.symPos = s.md.half then (if s.md.curBit then s.md.inc0 else s.md.inc1)
        else s.md.curInc) →
      exec .mdGetSample s =
        .next ((s.setMd { s.md with
          curInc := inc
          phase := (s.md.phase + inc.toNat) % 2 ^ 32 % 2 ^ s.build.phaseBits
          symPos := s.md.symPos + 1
          active := decide (s.md.symPos + 1 ≠ s.md.sps) }).reply
          (respond true (BitVec.ofInt 32 (sine s.build s.md.phase))))) ∧
    (∀ v b inc, s.md.active = false → s.txq.put ≠ s.txq.get → v = Memory.read s.txq.slot s.txq.get →
      (v = 0 → b = false) → (v = 1 → b = true) → (2 ≤ v → b = Config.wideItemBit v) →
      inc = (if s.md.man = true ∧ 0 = s.md.half then (if b then s.md.inc0 else s.md.inc1)
        else (if v = 1 then s.md.inc1 else s.md.inc0)) →
      exec .mdGetSample s =
        .next (((s.setTxq ⟨s.txq.put, (s.txq.get + 1) % s.build.txqN, s.txq.slot⟩).setMd { s.md with
          curBit := b
          curInc := inc
          phase := (s.md.phase + inc.toNat) % 2 ^ 32 % 2 ^ s.build.phaseBits
          symPos := 1
          active := decide (1 ≠ s.md.sps) }).reply
          (respond true (BitVec.ofInt 32 (sine s.build s.md.phase)))))

/-- 43_modulator.md R182: a transmission of `n` queued symbols gives exactly `n * MD.sps` samples, then "no sample". -/
def Obligations.QueuedSymbolsGiveSpsSamplesEach : Prop :=
  ∀ (s : State), QueueInv s.build.txqN s.txq → MdInv s.build s.md → s.md.active = false →
    ∃ (t : State) (ws : List CmdWord),
      execAll (List.replicate (s.txq.count s.build.txqN * s.md.sps) .mdGetSample) s = .next t ∧
      (t.port s.serving).responses = (s.port s.serving).responses ++ ws ∧
      ws.length = s.txq.count s.build.txqN * s.md.sps ∧ (∀ w ∈ ws, w.getLsbD 63 = true) ∧
      t.txq.items s.build.txqN = [] ∧ t.md.active = false ∧
      exec .mdGetSample t = .next (t.reply (respond false 0))

/-- 43_modulator.md R181: the phase changes only where a sample is produced, by the increment in use, and where the modulator
is cleared, to 0.
R181 says that the phase advances by the increment, R179 that it does so modulo `2^32`; that a phase register of fewer
bits keeps the low `PHASE_BITS` of that is the model's choice (notes/assumptions/6.md). -/
def Obligations.PhaseAdvancesOnlyWithSamples : Prop :=
  ∀ (i : Instr) (s t : State), exec i s = .next t →
    (i ∉ [Instr.mdGetSample, .facEncodeGetSample, .mdSetup, .mdClear, .facSetup, .facEncodeMessage] →
      t.md.phase = s.md.phase) ∧
    (i = .mdGetSample ∨ i = .facEncodeGetSample →
      (s.md.active = true ∨ s.txq.canGet = true → t.md.phase = (s.md.phase + t.md.curInc.toNat) % 2 ^ 32 % 2 ^ s.build.phaseBits) ∧
      (s.md.active = false → s.txq.canGet = false → t.md.phase = s.md.phase)) ∧
    (i = .mdClear ∨ i = .facEncodeMessage → t.md.phase = 0) ∧
    (i = .mdSetup ∨ i = .facSetup → t.md.phase = if s.cfg.valid then 0 else s.md.phase)

/-- 43_modulator.md R170: an entry of the quarter-wave table is the rounded sine at the centre of its step, in every build;
with the defaults the table is the listing of R170, read forwards and backwards and negated by the quadrant. In every build
the sine is in `[-SINE_AMPL, SINE_AMPL]`, negated by half a turn, mirrored about the quarter turn, and does not read the phase
bits below its index; with the defaults it is never 0. R170 and 20_memory.md R60 give an entry 16 bits; that a larger one, which
only a `SINE_AMPL` above 65535 gives, is not cut is the model's choice (notes/assumptions/6.md). -/
def Obligations.SineIsOddAndMirrored : Prop :=
  (∀ (b : Build) (i : Nat), b.valid = true → i < 2 ^ b.qtabBits →
    (sineQ b i : Int) =
      ⌊(b.sineAmpl : ℝ) * Real.sin (Real.pi / 2 * (((i : ℝ) + 1 / 2) / 2 ^ b.qtabBits)) + 1 / 2⌋) ∧
  (∀ (b : Build) (i low step : Nat), b.valid = true → i < 2 ^ b.qtabBits →
    step = 2 ^ (b.phaseBits - 2 - b.qtabBits) → low < step →
    sine b (i * step + low) = sineQ b i ∧
    sine b (2 ^ (b.phaseBits - 2) + i * step + low) = sineQ b (2 ^ b.qtabBits - 1 - i) ∧
    sine b (2 * 2 ^ (b.phaseBits - 2) + i * step + low) = -(sineQ b i : Int) ∧
    sine b (3 * 2 ^ (b.phaseBits - 2) + i * step + low) = -(sineQ b (2 ^ b.qtabBits - 1 - i) : Int)) ∧
  (∀ table : List Nat,
    table =
      [402, 1206, 2009, 2811, 3612, 4410, 5205, 5998, 6786, 7571, 8351, 9126, 9896, 10659, 11417, 12167,
        12910, 13645, 14372, 15090, 15800, 16499, 17189, 17869, 18537, 19195, 19841, 20475, 21096, 21705, 22301, 22884,
        23452, 24007, 24547, 25072, 25582, 26077, 26556, 27019, 27466, 27896, 28310, 28706, 29085, 29447, 29791, 30117,
        30424, 30714, 30985, 31237, 31470, 31685, 31880, 32057, 32213, 32351, 32469, 32567, 32646, 32705, 32745, 32765] →
    (List.range 64).map (sineQ {}) = table ∧
    ∀ i < 64, ∀ low < 2 ^ 24,
      sine {} (i * 2 ^ 24 + low) = table.getD i 0 ∧
      sine {} (2 ^ 30 + i * 2 ^ 24 + low) = table.getD (63 - i) 0 ∧
      sine {} (2 * 2 ^ 30 + i * 2 ^ 24 + low) = -(table.getD i 0 : Int) ∧
      sine {} (3 * 2 ^ 30 + i * 2 ^ 24 + low) = -(table.getD (63 - i) 0 : Int)) ∧
  (∀ (b : Build) (p : Nat), b.valid = true →
    -(b.sineAmpl : Int) ≤ sine b p ∧ sine b p ≤ b.sineAmpl ∧
    sine b (p + 2 ^ (b.phaseBits - 1)) = -sine b p ∧
    (p < 2 ^ (b.phaseBits - 1) → sine b (2 ^ (b.phaseBits - 1) - 1 - p) = sine b p) ∧
    sine b (p / 2 ^ (b.phaseBits - 2 - b.qtabBits) * 2 ^ (b.phaseBits - 2 - b.qtabBits)) = sine b p) ∧
  ∀ p : Nat, sine {} p ≠ 0

/-! ## Clock recovery -/

/-- 41_clock_recovery.md R121, R122: CR.SETUP loads the symbol length and the windows from a valid CFG and clears the tracker;
with an invalid CFG only `FAC.cfgErr` changes. CR.CLEAR forgets the edge, the last transition and the history. -/
def Obligations.ClockRecoverySetupAndClear : Prop :=
  ∀ (s : State) (d : Data),
    decode (cmdWord 3 0 0 d) = .ok .crSetup ∧ decode (cmdWord 3 1 0 d) = .ok .crClear ∧
    (∀ sps, sps = s.cfg.sampleRate.toNat / s.cfg.symbolRate.toNat → s.cfg.valid = true →
      exec .crSetup s =
        .next (((s.setCfgErr false).setCr
          ⟨sps, s.cfg.crTol.extractLsb' 0 8, s.cfg.crTol.extractLsb' 8 8, s.cfg.crCw.extractLsb' 0 8,
            s.cfg.crCw.extractLsb' 8 8, none, false, 0, [], BitVec.ofNat 32 sps⟩).reply (respond true 0))) ∧
    (s.cfg.valid = false → exec .crSetup s = .next ((s.setCfgErr true).reply (respond false 0))) ∧
    exec .crClear s =
      .next ((s.setCr
        ⟨s.cr.sps, s.cr.tolLo, s.cr.tolHi, s.cr.cwLo, s.cr.cwHi, none, false, 0, [],
          BitVec.ofNat 32 s.cr.sps⟩).reply (respond true 0))

/-- 41_clock_recovery.md R123 to R128: the first transition primes; a later one whose interval is out of tolerance changes
`CR.lastT` alone and is an event; one in tolerance seeds an unset edge, is pushed into the history and, when that is full,
moves the edge by the mean offset's distance from the symbol centre; both are decided by the centre window. `decided e` is
the decision against the edge `e`. -/
def Obligations.TransitionsAreGatedPushedAndDecided : Prop :=
  (∀ d : Data, decode (cmdWord 3 2 0 d) = .ok (.crTransition d)) ∧
  ∀ (s : State) (t iv : BitVec 32) (decided : Nat → Bool), 1 ≤ s.build.histN → iv = t - s.cr.lastT → 0 < s.cr.sps →
    (∀ e, decided e = true ↔
      (s.cr.cwLo.toNat : Int) * s.cr.sps ≤ 100 * (((t.toNat : Int) - e) % (s.cr.sps : Int)) ∧
      100 * (((t.toNat : Int) - e) % (s.cr.sps : Int)) ≤ (s.cr.cwHi.toNat : Int) * s.cr.sps) →
    (s.cr.lastValid = false →
      exec (.crTransition t) s =
        .next ((s.setCr { s.cr with lastValid := true, lastT := t }).reply (respond true 0))) ∧
    (s.cr.lastValid = true →
      ¬ (s.cr.tolLo.toNat * s.cr.sps ≤ 100 * iv.toNat ∧ 100 * iv.toNat ≤ s.cr.tolHi.toNat * s.cr.sps) →
      exec (.crTransition t) s =
        .next (((s.setCr { s.cr with lastT := t }).event .crReject).reply
          (respond true (match s.cr.edge with
            | none => 0
            | some e => if decided e then 1 else 0)))) ∧
    (∀ (e : Nat) (h : List Transition), s.cr.lastValid = true →
      s.cr.tolLo.toNat * s.cr.sps ≤ 100 * iv.toNat → 100 * iv.toNat ≤ s.cr.tolHi.toNat * s.cr.sps →
      (e : Int) = (match s.cr.edge with
        | none => ((t.toNat : Int) - (iv.toNat / 2 : Nat)) % (s.cr.sps : Int)
        | some e => e) →
      h = (if s.cr.hist.length + 1 ≤ s.build.histN then s.cr.hist ++ [Transition.mk t iv]
        else (s.cr.hist ++ [Transition.mk t iv]).drop 1) →
      (h.length ≠ s.build.histN →
        exec (.crTransition t) s =
          .next ((s.setCr { s.cr with lastT := t, edge := some e, hist := h }).reply
            (respond true (if decided e then 3 else 2)))) ∧
      (∀ (mco e' : Nat), h.length = s.build.histN →
        (mco : Int) = (h.map fun r => ((r.t.toNat : Int) - e) % (s.cr.sps : Int)).sum / (s.build.histN : Int) →
        (e' : Int) = ((e : Int) + mco - (s.cr.sps / 2 : Nat)) % (s.cr.sps : Int) →
        exec (.crTransition t) s =
          .next ((s.setCr { s.cr with
            lastT := t
            edge := some e'
            hist := h
            spsEst := BitVec.ofNat 32 ((h.map fun r => r.iv.toNat).sum / s.build.histN) }).reply
            (respond true (if decided e' then 3 else 2)))))

/-- 41_clock_recovery.md R130: on a jitter-free Manchester stream with an even symbol length, from a cleared tracker, the first
whole-symbol interval locks the edge half a symbol before the centres; then every centre is decided 1 and every boundary 0,
and the lock is kept. The tolerance window holds one symbol and not half of one; the centre window holds the centre and not
the boundary, as with the reset values. -/
def Obligations.ClockRecoveryConverges : Prop :=
  ∀ (s : State) (c : Nat) (bounds : List Bool) (stream : List (Nat × Bool)),
    1 ≤ s.build.histN → 2 ≤ s.cr.sps → s.cr.sps % 2 = 0 → s.cr = s.cr.cleared →
    50 < s.cr.tolLo.toNat → s.cr.tolLo.toNat ≤ 100 → 100 ≤ s.cr.tolHi.toNat →
    0 < s.cr.cwLo.toNat → s.cr.cwLo.toNat ≤ 50 → 50 ≤ s.cr.cwHi.toNat →
    stream = manchesterStream s.cr.sps c (false :: bounds) →
    c + (bounds.length + 1) * s.cr.sps < 2 ^ 32 →
    ∃ (t : State) (e : Nat) (ws : List CmdWord),
      execAll ((c :: stream.map Prod.fst).map fun n => .crTransition (BitVec.ofNat 32 n)) s = .next t ∧
      (e : Int) = ((c : Int) - (s.cr.sps / 2 : Nat)) % (s.cr.sps : Int) ∧
      CrLocked t.cr e ∧ t.cr.sps = s.cr.sps ∧
      (t.port s.serving).responses = (s.port s.serving).responses ++ ws ∧
      ws.map (fun w => w.getLsbD 0) = false :: stream.map Prod.snd

/-! ## The demodulator -/

/-- 42_demodulator.md R140, R141: DM.SETUP loads the coding and the clock-recovery configuration from a valid CFG and clears the
receive pipeline; with an invalid CFG only `FAC.cfgErr` changes. DM.CLEAR zeroes the pipeline, forgets the tracker's state and
empties RXQ, keeping the configuration. -/
def Obligations.DemodulatorSetupAndClear : Prop :=
  ∀ (s : State) (d : Data),
    decode (cmdWord 2 0 0 d) = .ok .dmSetup ∧ decode (cmdWord 2 1 0 d) = .ok .dmClear ∧
    (∀ sps, sps = s.cfg.sampleRate.toNat / s.cfg.symbolRate.toNat → s.cfg.valid = true →
      exec .dmSetup s =
        .next (((((s.setCfgErr false).setDm
          ⟨s.cfg.mode.getLsbD 0, 0, 0, 0, 0, 0, 0, 0, 0, 0, List.replicate s.build.majW false, false, 0⟩).setCr
          ⟨sps, s.cfg.crTol.extractLsb' 0 8, s.cfg.crTol.extractLsb' 8 8, s.cfg.crCw.extractLsb' 0 8,
            s.cfg.crCw.extractLsb' 8 8, none, false, 0, [], BitVec.ofNat 32 sps⟩).setRxq ⟨0, 0, s.rxq.slot⟩).reply
          (respond true 0))) ∧
    (s.cfg.valid = false → exec .dmSetup s = .next ((s.setCfgErr true).reply (respond false 0))) ∧
    exec .dmClear s =
      .next ((((s.setDm
        ⟨s.dm.man, 0, 0, 0, 0, 0, 0, 0, 0, 0, List.replicate s.build.majW false, false, 0⟩).setCr
        ⟨s.cr.sps, s.cr.tolLo, s.cr.tolHi, s.cr.cwLo, s.cr.cwHi, none, false, 0, [],
          BitVec.ofNat 32 s.cr.sps⟩).setRxq ⟨0, 0, s.rxq.slot⟩).reply (respond true 0))

/-- 42_demodulator.md R143, R144: DM.PROCESS_SAMPLE counts the sample, and runs the high-pass recursion on the input and the
last three inputs and outputs, exactly, scaled down toward minus infinity and cut to 32 bits; it shifts both histories. The
input is `DATA`'s field of `SAMPLE_BITS` bits read as two's complement, by default `sext_16(DATA[15:0])`: R64 writes 16, and
that the width is `SAMPLE_BITS` in every build (00_scope.md R8), and all of `DATA` where it exceeds 32, is the model's reading
(notes/assumptions/6.md). -/
def Obligations.SamplesAreCountedAndFiltered : Prop :=
  (∀ (b : Build) (d : Data), 1 ≤ b.sampleBits → b.sampleBits ≤ 32 →
    -(2 ^ (b.sampleBits - 1)) ≤ operandSample b d ∧ operandSample b d < 2 ^ (b.sampleBits - 1) ∧
    (2 ^ b.sampleBits : Int) ∣ (d.toNat : Int) - operandSample b d) ∧
  (∀ d : Data, operandSample {} d = (d.extractLsb' 0 16).toInt) ∧
  ∀ (s t : State) (d : Data) (x : Int), exec (.dmProcessSample d) s = .next t → x = operandSample s.build d →
    t.dm.cnt = (s.dm.cnt + 1) % 2 ^ s.build.cntBits ∧
    t.dm.x1 = x ∧ t.dm.x2 = s.dm.x1 ∧ t.dm.x3 = s.dm.x2 ∧ t.dm.y2 = s.dm.y1 ∧ t.dm.y3 = s.dm.y2 ∧
    t.dm.y1 = BitVec.ofInt 32
      ((s.build.hpfB0 * x + s.build.hpfB1 * s.dm.x1 + s.build.hpfB2 * s.dm.x2 + s.build.hpfB3 * s.dm.x3 - s.build.hpfA1 * s.dm.y1.toInt - s.build.hpfA2 * s.dm.y2.toInt -
        s.build.hpfA3 * s.dm.y3.toInt).fdiv (2 ^ s.build.hpfShift : Int)) ∧
    (t.dm.cnt = 0 → s.trace ++ [Event.crWrap] <+: t.trace)

/-- 42_demodulator.md R145, R146, R147, R152: the envelope follows the absolute value of the filter's output and the two marks
follow the envelope, fast one way and slow the other, each by a fraction of the distance rounded toward minus infinity; each
lies between its old value and its target, so none leaves `[0, 2^31]`. -/
def Obligations.EnvelopeAndMarksFollow : Prop :=
  ∀ (s t : State) (x : Data) (a : Nat), exec (.dmProcessSample x) s = .next t → a = t.dm.y1.toInt.natAbs →
    a ≤ 2 ^ 31 ∧
    (t.dm.env : Int) = s.dm.env + ((a : Int) - s.dm.env).fdiv (2 ^ s.build.envShift) ∧
    (s.dm.hi < t.dm.env → (t.dm.hi : Int) = s.dm.hi + ((t.dm.env : Int) - s.dm.hi).fdiv (2 ^ s.build.hiAtk)) ∧
    (t.dm.env ≤ s.dm.hi → (t.dm.hi : Int) = s.dm.hi - ((s.dm.hi : Int) - t.dm.env).fdiv (2 ^ s.build.hiRel)) ∧
    (t.dm.env < s.dm.lo → (t.dm.lo : Int) = s.dm.lo - ((s.dm.lo : Int) - t.dm.env).fdiv (2 ^ s.build.loAtk)) ∧
    (s.dm.lo ≤ t.dm.env → (t.dm.lo : Int) = s.dm.lo + ((t.dm.env : Int) - s.dm.lo).fdiv (2 ^ s.build.loRel)) ∧
    (min s.dm.env a ≤ t.dm.env ∧ t.dm.env ≤ max s.dm.env a) ∧
    (min s.dm.hi t.dm.env ≤ t.dm.hi ∧ t.dm.hi ≤ max s.dm.hi t.dm.env) ∧
    (min s.dm.lo t.dm.env ≤ t.dm.lo ∧ t.dm.lo ≤ max s.dm.lo t.dm.env) ∧
    (s.dm.env ≤ 2 ^ 31 → s.dm.hi ≤ 2 ^ 31 → s.dm.lo ≤ 2 ^ 31 →
      t.dm.env ≤ 2 ^ 31 ∧ t.dm.hi ≤ 2 ^ 31 ∧ t.dm.lo ≤ 2 ^ 31)

/-- 42_demodulator.md R142, R148, R149, R150: the slicer compares the envelope with the midpoint of the marks; the accepted level
flips only when all samples of the window agree on the other level; a flip is told to clock recovery with its sample count,
and a data sample point becomes a symbol, stored in RXQ or dropped with an event. `cr` is the tracker after the counter's
wrap, if it wrapped. Nothing but DM, CR, RXQ and the trace changes.
A counter of more than 32 bits is told to clock recovery by its low 32: that is the model's choice (notes/assumptions/5.md). -/
def Obligations.LevelFlipsBecomeSymbols : Prop :=
  (∀ d : Data, decode (cmdWord 2 2 0 d) = .ok (.dmProcessSample d)) ∧
  ∀ (s : State) (x : Data), 1 ≤ s.build.majW → s.dm.win.length = s.build.majW →
    ∃ (dm : DmRegs) (inst flip : Bool) (cr : CrRegs) (wrap : List Event),
      (inst = true ↔ dm.hi + dm.lo < 2 * dm.env) ∧
      dm.win = s.dm.win.drop 1 ++ [inst] ∧
      (flip = true ↔ (∀ v ∈ dm.win, v = !s.dm.level)) ∧
      dm.level = xor s.dm.level flip ∧ dm.man = s.dm.man ∧
      cr = (if dm.cnt = 0 then s.cr.cleared else s.cr) ∧ wrap = (if dm.cnt = 0 then [Event.crWrap] else []) ∧
      (flip = false →
        exec (.dmProcessSample x) s =
          .next (({ s with dm := dm, cr := cr, trace := s.trace ++ wrap } : State).reply
            (respond true (bitsData [false, false, false, false, dm.level])))) ∧
      (∀ (c : CrRegs) (o : CrResult) (events : List Event), flip = true →
        (c, o) = cr.transition s.build.histN (BitVec.ofNat 32 dm.cnt) →
        events = wrap ++ (if o.rejected then [Event.crReject] else []) →
        (o.d = false →
          exec (.dmProcessSample x) s =
            .next (({ s with dm := dm, cr := c, trace := s.trace ++ events } : State).reply
              (respond true (bitsData [false, false, false, true, dm.level])))) ∧
        (o.d = true → (s.rxq.put + 1) % s.build.rxqN ≠ s.rxq.get →
          exec (.dmProcessSample x) s =
            .next (({ s with
              dm := dm, cr := c, rxq := s.rxq.push s.build.rxqN (symbolItem s.build (xor dm.level dm.man))
              trace := s.trace ++ events } : State).reply
              (respond true (bitsData [true, xor dm.level dm.man, false, true, dm.level])))) ∧
        (o.d = true → (s.rxq.put + 1) % s.build.rxqN = s.rxq.get →
          exec (.dmProcessSample x) s =
            .next (({ s with dm := dm, cr := c, trace := s.trace ++ events ++ [Event.rxqDrop] } : State).reply
              (respond true (bitsData [false, xor dm.level dm.man, true, true, dm.level])))))

/-- 42_demodulator.md R143: the `k`-th sample since DM.CLEAR has `DM.cnt = k mod 2^CNT_BITS`. -/
def Obligations.SampleCounterCountsSamplesSinceClear : Prop :=
  ∀ (s : State) (xs : List Data),
    ∃ t, execAll (.dmClear :: xs.map Instr.dmProcessSample) s = .next t ∧
      t.dm.cnt = xs.length % 2 ^ s.build.cntBits

/-! ## The facade -/

/-- 20_memory.md R68: the commands with no side effect leave the block unchanged, so issuing one twice gives the same response
twice. FAC.NOP answers `V = 1, RDATA = 0` (46_facade.md R251). -/
def Obligations.ReadOnlyCommandsChangeNothing : Prop :=
  (∀ d : Data, decode (cmdWord 0 0 0 d) = .ok .facNop) ∧
  (∀ s : State, exec .facNop s = .next (s.reply (respond true 0))) ∧
  ∀ (i : Instr) (s : State), isReadOnly i = true →
    ∃ r : Resp, exec i s = .next (s.reply r) ∧ exec i (s.reply r) = .next ((s.reply r).reply r)

/-- 46_facade.md R252: FAC.SETUP with a valid CFG configures every unit from CFG, clears them and empties the message buffers,
CFG, CRC.acc, the memories and the trace untouched; with an invalid CFG only `FAC.cfgErr` changes. -/
def Obligations.FacadeSetupConfiguresEveryUnit : Prop :=
  ∀ (s : State) (d : Data) (sps : Nat), sps = s.cfg.sampleRate.toNat / s.cfg.symbolRate.toNat →
    decode (cmdWord 0 1 0 d) = .ok .facSetup ∧
    (s.cfg.valid = false → exec .facSetup s = .next ((s.setCfgErr true).reply (respond false 0))) ∧
    (s.cfg.valid = true ↔
      1 ≤ s.cfg.sampleRate.toNat ∧ 1 ≤ s.cfg.symbolRate.toNat ∧ 2 ≤ sps ∧ sps ≤ 65535) ∧
    (s.cfg.valid = true →
      exec .facSetup s = .next (({ s with
        md :=
          { sps := sps, half := sps / 2
            inc0 := BitVec.ofNat 32 (s.cfg.tone0.toNat * 2 ^ 32 / s.cfg.sampleRate.toNat)
            inc1 := BitVec.ofNat 32 (s.cfg.tone1.toNat * 2 ^ 32 / s.cfg.sampleRate.toNat)
            man := s.cfg.mode.getLsbD 0
            phase := 0, curInc := 0, active := false, symPos := 0, curBit := false, txOverflow := false }
        txq := ⟨0, 0, s.txq.slot⟩
        dm := ⟨s.cfg.mode.getLsbD 0, 0, 0, 0, 0, 0, 0, 0, 0, 0, List.replicate s.build.majW false, false, 0⟩
        cr := ⟨sps, s.cfg.crTol.extractLsb' 0 8, s.cfg.crTol.extractLsb' 8 8, s.cfg.crCw.extractLsb' 0 8,
          s.cfg.crCw.extractLsb' 8 8, none, false, 0, [], BitVec.ofNat 32 sps⟩
        rxq := ⟨0, 0, s.rxq.slot⟩
        fc := ⟨s.cfg.mode.getLsbD 1, s.fc.buf, 0, 0xFFFF, false, false, 0, 0, 0, 0⟩
        fac := ⟨s.fac.txbuf, 0, false, 0, s.fac.pend, false⟩ } : State).reply (respond true 0)))

/-- 70_reset_and_hazards.md R332: from any state, CFG0 to CFG8 written with their reset values, then FAC.SETUP and CRC.INIT,
reach the reset state in every register; only the memories, BYTE_OUT, the event trace and the ports differ. That CRC.acc is
`CRC_INIT` in the reset state of every build, where R29 and R330 write its default `0xFFFF`, is the model's reading
(notes/assumptions/13.md). -/
def Obligations.SetupSequenceReachesResetState : Prop :=
  ∀ s : State, ∃ t, execAll (cfgDefaultsProgram ++ [.crcInit]) s = .next t ∧
    SameBlock { State.resetOf s.build with
      txq := ⟨0, 0, s.txq.slot⟩
      rxq := ⟨0, 0, s.rxq.slot⟩
      fc := { FcRegs.reset with buf := s.fc.buf }
      fac := { FacRegs.reset with txbuf := s.fac.txbuf, pend := s.fac.pend }
      byteOut := s.byteOut
      trace := s.trace } t

/-- 46_facade.md R253: FAC.ENCODE_MESSAGE idles the generator, empties TXQ, and queues the preamble, the frame's bits and the
postamble in order as far as TXQ takes them; it answers the number of symbols when all fit and `V = 0` otherwise. The staged
payload is kept, and nothing of the receive side changes.
An answer above 32 bits, which only a build with larger sizes than the default can give, is its low 32 bits: that is the
model's choice (notes/assumptions/20.md). -/
def Obligations.EncodeMessageQueuesTheTransmission : Prop :=
  ∀ (s : State) (d : Data) (syms : List Bool), QueueInv s.build.txqN s.txq →
    syms = (List.range (s.cfg.preambleLen.extractLsb' 0 16).toNat).map (fun k => k % 2 == 0) ++
      frameBits s.build.crcPoly s.fc.crcBE s.txPayload ++
      List.replicate (s.cfg.postambleLen.extractLsb' 0 16).toNat false →
    decode (cmdWord 0 2 0 d) = .ok .facEncodeMessage ∧
    ∃ q, exec .facEncodeMessage s =
        .next ((((s.setMd
          ⟨s.md.sps, s.md.half, s.md.inc0, s.md.inc1, s.md.man, 0, 0, false, 0, false, false⟩).setFc
          { s.fc with ones := 0 }).queued q (syms.length - (s.build.txqN - 1))).reply
          (respond (decide (syms.length ≤ s.build.txqN - 1)) (zext32 syms.length))) ∧
      QueueInv s.build.txqN q ∧
      q.items s.build.txqN = (syms.take (s.build.txqN - 1)).map (symbolItem s.build)

/-- 46_facade.md R255: FAC.DECODE_PROCESS_SAMPLE is DM.PROCESS_SAMPLE, then every symbol that RXQ holds taken in order and fed to
FC.RX_BIT; RXQ is left empty, and the answer gathers the demodulator's flags, the parser's over all bits fed, and whether a
message is pending.
The bit fed for an item that is neither 0 nor 1 is a free value: that, and its form as a
function of the item, is the model's choice (notes/assumptions/19.md). The sample's width is `SAMPLE_BITS`: the model's reading
(notes/assumptions/6.md). -/
def Obligations.DecodeSampleDrainsTheReceiveQueue : Prop :=
  (∀ d : Data, decode (cmdWord 0 4 0 d) = .ok (.facDecodeProcessSample d)) ∧
  ∀ (s m : State) (f : DmFlags) (x : Data) (t : State) (rs : List RxFlags),
    QueueInv s.build.rxqN s.rxq →
    (m, f) = dmProcess (operandSample s.build x) s →
    (t, rs) = feedBits ((m.rxq.items m.build.rxqN).map itemBit) (m.setRxq { m.rxq with get := m.rxq.put }) →
    exec (.dmProcessSample x) s = .next (m.reply (respond true f.rdata)) ∧
    exec (.facDecodeProcessSample x) s = .next (t.reply (respond true (bitsData
      [f.pushed, f.sym, f.dropped, rs.any (fun q => q.frameOk), rs.any (fun q => q.msgDropped),
        rs.any (fun q => q.crcMismatch), rs.any (fun q => q.oversize), t.fac.pendValid]))) ∧
    t.rxq = { m.rxq with get := m.rxq.put } ∧ t.rxq.items t.build.rxqN = []

/-- 46_facade.md R256, R257, R260: the pending message is reported without being consumed, its bytes are read in range only,
and DECODE_CLEAR_MESSAGE releases it, touching nothing else.
An answer above 32 bits, which only a build with larger sizes than the default can give, is its low 32 bits: that is the
model's choice (notes/assumptions/20.md). -/
def Obligations.PendingMessageCommands : Prop :=
  ∀ (s : State) (d : Data),
    decode (cmdWord 0 5 0 d) = .ok .facDecodeGetMessage ∧ decode (cmdWord 0 6 0 d) = .ok .facDecodeClearMessage ∧
    decode (cmdWord 0 9 0 d) = .ok (.facRxmsgRead d) ∧
    (s.fac.pendValid = true →
      exec .facDecodeGetMessage s = .next (s.reply (respond true (BitVec.ofNat 32 s.fac.pendLen)))) ∧
    (s.fac.pendValid = false → exec .facDecodeGetMessage s = .next (s.reply (respond false 0))) ∧
    exec .facDecodeClearMessage s =
      .next ((s.setFac { s.fac with pendValid := false, pendLen := 0 }).reply (respond true 0)) ∧
    (∀ k : BitVec 32, s.fac.pendValid = true → k.toNat < s.fac.pendLen →
      exec (.facRxmsgRead k) s =
        .next (s.reply (respond true ((Memory.read s.fac.pend k.toNat).setWidth 32)))) ∧
    (∀ k : BitVec 32, s.fac.pendValid = false ∨ s.fac.pendLen ≤ k.toNat →
      exec (.facRxmsgRead k) s = .next (s.reply (respond false 0)))

/-- 46_facade.md R258, R259: TXBUF_CLEAR sets `FAC.txLen` to 0; TXBUF_PUSH stores a byte at `FAC.txLen` and advances it, or
answers `V = 0` on a full buffer and changes nothing. -/
def Obligations.StagingBufferCommands : Prop :=
  ∀ (s : State) (d : Data) (b : BitVec 8),
    decode (cmdWord 0 7 0 d) = .ok .facTxbufClear ∧
    decode (cmdWord 0 8 0 d) = .ok (.facTxbufPush (d.extractLsb' 0 8)) ∧
    exec .facTxbufClear s = .next ((s.setFac { s.fac with txLen := 0 }).reply (respond true 0)) ∧
    (s.fac.txLen = s.build.txbufLen → exec (.facTxbufPush b) s = .next (s.reply (respond false 0))) ∧
    (s.fac.txLen ≠ s.build.txbufLen → Memory.wf s.fac.txbuf = true →
      ∃ txbuf, exec (.facTxbufPush b) s =
          .next ((s.setFac { s.fac with txbuf := txbuf, txLen := s.fac.txLen + 1 }).reply (respond true 0)) ∧
        Memory.read txbuf s.fac.txLen = b ∧
        ∀ k, k ≠ s.fac.txLen → Memory.read txbuf k = Memory.read s.fac.txbuf k)

/-- 46_facade.md R261, R262 and 10_state.md R22, R24: a write stores the value masked to the register's fields and changes no
unit; a read answers the register, or STATUS for index 9; every other index is illegal. -/
def Obligations.ConfigurationRegisterAccess : Prop :=
  ∀ (s : State) (k : BitVec 8) (v : BitVec 32),
    decode (cmdWord 0 10 k v) = .ok (.facCfgWrite k v) ∧ decode (cmdWord 0 11 k v) = .ok (.facCfgRead k) ∧
    (9 ≤ k.toNat → exec (.facCfgWrite k v) s = .next (s.reply respondIllegal)) ∧
    (10 ≤ k.toNat → exec (.facCfgRead k) s = .next (s.reply respondIllegal)) ∧
    (k.toNat < 9 → ∃ c : CfgRegs, exec (.facCfgWrite k v) s = .next ((s.setCfg c).reply (respond true 0)) ∧
      c.read k.toNat =
        v &&& (if k.toNat < 4 then 0xFFFFFFFF else if k.toNat = 4 then 0x00000003 else 0x0000FFFF) ∧
      ∀ j < 9, j ≠ k.toNat → c.read j = s.cfg.read j) ∧
    (k.toNat < 9 → exec (.facCfgRead k) s = .next (s.reply (respond true (s.cfg.read k.toNat)))) ∧
    exec (.facCfgRead 9) s = .next (s.reply (respond true
      (BitVec.ofNat 32 (s.fac.pendValid.toNat +
        2 * (s.md.active || decide (s.txq.count s.build.txqN ≠ 0)).toNat +
        4 * s.md.txOverflow.toNat + 8 * s.fac.cfgErr.toNat)))) ∧
    [s.cfg.read 0, s.cfg.read 1, s.cfg.read 2, s.cfg.read 3, s.cfg.read 4, s.cfg.read 5, s.cfg.read 6, s.cfg.read 7,
      s.cfg.read 8] =
      [s.cfg.sampleRate, s.cfg.symbolRate, s.cfg.tone0, s.cfg.tone1, s.cfg.mode, s.cfg.preambleLen,
        s.cfg.postambleLen, s.cfg.crTol, s.cfg.crCw]

/-- 70_reset_and_hazards.md R338: once a message is pending, no command but DECODE_CLEAR_MESSAGE, FAC.SETUP and the reset input
changes it: it stays pending, with its length and its bytes. -/
def Obligations.PendingMessageIsKept : Prop :=
  (∀ (i : Instr) (s t : State), exec i s = .next t → s.fac.pendValid = true →
    i ≠ .facDecodeClearMessage → i ≠ .facSetup →
    t.fac.pendValid = true ∧ t.fac.pendLen = s.fac.pendLen ∧ t.fac.pend = s.fac.pend) ∧
  ∀ (s t : State), step s = .next t → s.resetIn = .off → s.fac.pendValid = true → t.fac.pendValid = false →
    ∃ p order, s.nextPort = some (p, order) ∧
      (decode ((s.port p).pending.headD 0) = .ok .facDecodeClearMessage ∨
        decode ((s.port p).pending.headD 0) = .ok .facSetup)

/-- 46_facade.md R265, last paragraph: the transmit and the receive path share only CFG. A transmit command leaves the receive
path as it was and writes no configuration register but CFG5 and CFG6; a receive command leaves the transmit path and CFG as
they were. What a receive command answers and leaves of the receive path depends on the receive path alone; what a transmit
command answers and leaves of the transmit path and of CFG depends on the transmit path, CFG and the CRC byte order alone. -/
def Obligations.TransmitAndReceivePathsAreIsolated : Prop :=
  (∀ (i : Instr) (s t : State), exec i s = .next t → isTransmit i = true →
    t.rxView = s.rxView ∧
    t.cfg = { s.cfg with preambleLen := t.cfg.preambleLen, postambleLen := t.cfg.postambleLen }) ∧
  (∀ (i : Instr) (s t : State), exec i s = .next t → isReceive i = true → t.txView = s.txView ∧ t.cfg = s.cfg) ∧
  (∀ (i : Instr) (s s' : State), isReceive i = true → s'.rxView = s.rxView →
    queueReady i s' = queueReady i s ∧
    ∀ t, exec i s = .next t → ∃ (t' : State) (w : CmdWord) (events : List Event), exec i s' = .next t' ∧
      t'.rxView = t.rxView ∧
      t.trace = s.trace ++ events ∧ t'.trace = s'.trace ++ events ∧
      (t.port s.serving).responses = (s.port s.serving).responses ++ [w] ∧
      (t'.port s'.serving).responses = (s'.port s'.serving).responses ++ [w]) ∧
  ∀ (i : Instr) (s s' : State), isTransmit i = true → s'.txView = s.txView → s'.cfg = s.cfg →
    s'.fc.crcBE = s.fc.crcBE →
    queueReady i s' = queueReady i s ∧
    ∀ t, exec i s = .next t → ∃ (t' : State) (w : CmdWord) (events : List Event), exec i s' = .next t' ∧
      t'.txView = t.txView ∧ t'.cfg = t.cfg ∧
      t.trace = s.trace ++ events ∧ t'.trace = s'.trace ++ events ∧
      (t.port s.serving).responses = (s.port s.serving).responses ++ [w] ∧
      (t'.port s'.serving).responses = (s'.port s'.serving).responses ++ [w]

/-- 10_state.md R34: stale memory contents are never observable. Two states that meet the invariant and differ only in memory
elements holding nothing live answer every command alike, and still differ only so afterwards. -/
def Obligations.StaleMemoryIsNeverObservable : Prop :=
  ∀ (i : Instr) (s s' : State), Invariant s → Invariant s' → LiveEq s s' →
    match exec i s, exec i s' with
    | .next t, .next t' => LiveEq t t'
    | .fault f, .fault f' => f = f'
    | .refused r, .refused r' => r = r'
    | _, _ => False

end
end

