-- ==== Sys2Proof/Laws/Encoding.lean ====
section
/-! SUPPORT. The fields of an encoded command word and the operands read back from `DATA` (30_encoding.md R80, R85). -/

namespace Sys2Proof.Machine

set_option Elab.async false

/-- `UNIT` of a word built from its fields. -/
@[simp] theorem cmdUnit_cmdWord (u o : BitVec 4) (k : BitVec 8) (d : Data) : cmdUnit (cmdWord u o k d) = u := by
  apply BitVec.eq_of_getLsbD_eq
  intro i hi
  simp only [cmdUnit, cmdWord, BitVec.getLsbD_extractLsb', BitVec.getLsbD_append, hi, decide_true, Bool.true_and]
  rw [if_neg (by omega), if_neg (by omega), if_neg (by omega), if_neg (by omega)]
  congr 1
  omega

/-- `OP` of a word built from its fields. -/
@[simp] theorem cmdOp_cmdWord (u o : BitVec 4) (k : BitVec 8) (d : Data) : cmdOp (cmdWord u o k d) = o := by
  apply BitVec.eq_of_getLsbD_eq
  intro i hi
  simp only [cmdOp, cmdWord, BitVec.getLsbD_extractLsb', BitVec.getLsbD_append, hi, decide_true, Bool.true_and]
  rw [if_neg (by omega), if_neg (by omega), if_neg (by omega), if_pos (by omega)]
  congr 1
  omega

/-- `SEL` of a word built from its fields. -/
@[simp] theorem cmdSel_cmdWord (u o : BitVec 4) (k : BitVec 8) (d : Data) : cmdSel (cmdWord u o k d) = k := by
  apply BitVec.eq_of_getLsbD_eq
  intro i hi
  simp only [cmdSel, cmdWord, BitVec.getLsbD_extractLsb', BitVec.getLsbD_append, hi, decide_true, Bool.true_and]
  rw [if_neg (by omega), if_neg (by omega), if_pos (by omega)]
  congr 1
  omega

/-- The reserved field of a word built from its fields is zero (30_encoding.md R80). -/
@[simp] theorem cmdRsv_cmdWord (u o : BitVec 4) (k : BitVec 8) (d : Data) : cmdRsv (cmdWord u o k d) = 0 := by
  apply BitVec.eq_of_getLsbD_eq
  intro i hi
  simp only [cmdRsv, cmdWord, BitVec.getLsbD_extractLsb', BitVec.getLsbD_append, hi, decide_true, Bool.true_and]
  rw [if_neg (by omega), if_pos (by omega)]
  simp

/-- `DATA` of a word built from its fields. -/
@[simp] theorem cmdData_cmdWord (u o : BitVec 4) (k : BitVec 8) (d : Data) : cmdData (cmdWord u o k d) = d := by
  apply BitVec.eq_of_getLsbD_eq
  intro i hi
  simp only [cmdData, cmdWord, BitVec.getLsbD_extractLsb', BitVec.getLsbD_append, hi, decide_true, Bool.true_and]
  rw [if_pos (by omega)]
  congr 1
  omega

/-- A bit operand read back from `DATA` (30_encoding.md R85). -/
@[simp] theorem operandBit_dataOfBit (b : Bool) : operandBit (dataOfBit b) = b := by cases b <;> decide

/-- A byte operand read back from `DATA`. -/
@[simp] theorem operandByte_dataOfByte (b : BitVec 8) : operandByte (dataOfByte b) = b := by
  apply BitVec.eq_of_getLsbD_eq
  intro i hi
  simp [operandByte, dataOfByte, hi]
  omega

/-- A 16-bit operand read back from `DATA`. -/
@[simp] theorem operandHalf_dataOfHalf (n : BitVec 16) : operandHalf (dataOfHalf n) = n := by
  apply BitVec.eq_of_getLsbD_eq
  intro i hi
  simp [operandHalf, dataOfHalf, hi]
  omega

end Sys2Proof.Machine
end

