-- ==== Sys2Proof/Laws/Memory.lean ====
section
/-! SUPPORT. The laws of the internal memories (20_memory.md R60): a read after a write, the canonical form kept by every
memory operation, and what a copy leaves. -/

namespace Sys2Proof.Machine

set_option Elab.async false

variable {α : Type} [DecidableEq α] [Inhabited α]

omit [DecidableEq α] in
@[simp] theorem Memory.read_nil (i : Nat) : Memory.read ([] : Memory α) i = Memory.stale := rfl

omit [DecidableEq α] in
theorem Memory.read_cons (k : Nat) (v : α) (m : Memory α) (i : Nat) :
    Memory.read ((k, v) :: m) i = if k = i then v else Memory.read m i := rfl

/-- The canonical form of a memory with a first entry: it is not stale, the rest is canonical and lies above it. -/
theorem Memory.wf_cons (k : Nat) (v : α) (m : Memory α) :
    Memory.wf ((k, v) :: m) = true ↔ v ≠ Memory.stale ∧ (∀ c ∈ m, k < c.1) ∧ Memory.wf m = true := by
  simp only [Memory.wf, List.pairwise_cons, List.all_cons, Bool.and_eq_true, decide_eq_true_eq]
  tauto

@[simp] theorem Memory.wf_nil : Memory.wf ([] : Memory α) = true := by simp [Memory.wf]

omit [DecidableEq α] in
/-- An index below every listed one reads as stale. -/
theorem Memory.read_below {m : Memory α} {i : Nat} (h : ∀ c ∈ m, i < c.1) : Memory.read m i = Memory.stale := by
  induction m with
  | nil => rfl
  | cons c m ih =>
    obtain ⟨k, v⟩ := c
    have hk : i < k := h (k, v) (by simp)
    rw [Memory.read_cons, if_neg (by omega)]
    exact ih fun c hc => h c (by simp [hc])

/-- An index a write does not name keeps what it reads as. -/
theorem Memory.read_write_other (m : Memory α) {i j : Nat} (v : α) (h : j ≠ i) :
    Memory.read (Memory.write m i v) j = Memory.read m j := by
  induction m with
  | nil => by_cases hv : v = Memory.stale <;> simp [Memory.write, hv, Memory.read_cons, Ne.symm h]
  | cons c m ih =>
    obtain ⟨k, x⟩ := c
    unfold Memory.write
    split
    · split <;> simp [Memory.read_cons, Ne.symm h]
    · split
      · next hki => subst hki; split <;> simp [Memory.read_cons, Ne.symm h]
      · simp [Memory.read_cons, ih]

/-- The index a write names reads as what was written, in a memory in canonical form. -/
theorem Memory.read_write_same {m : Memory α} (hm : Memory.wf m = true) (i : Nat) (v : α) :
    Memory.read (Memory.write m i v) i = v := by
  induction m with
  | nil => by_cases hv : v = Memory.stale <;> simp [Memory.write, hv, Memory.read_cons]
  | cons c m ih =>
    obtain ⟨k, x⟩ := c
    obtain ⟨-, hlt, hwf⟩ := (Memory.wf_cons k x m).1 hm
    unfold Memory.write
    split
    · next hik =>
      split
      · next hv => rw [hv]; exact Memory.read_below (by simpa [hik] using fun a b hab => lt_trans hik (hlt (a, b) hab))
      · simp [Memory.read_cons]
    · split
      · next hki =>
        subst hki
        split
        · next hv => rw [hv]; exact Memory.read_below hlt
        · simp [Memory.read_cons]
      · next hki => rw [Memory.read_cons, if_neg (Ne.symm hki)]; exact ih hwf

/-- Every listed index of a written memory was listed before or is the one written. -/
theorem Memory.mem_write {m : Memory α} {i : Nat} {v : α} {c : Nat × α} (h : c ∈ Memory.write m i v) :
    c ∈ m ∨ c.1 = i := by
  induction m with
  | nil => by_cases hv : v = Memory.stale <;> simp [Memory.write, hv] at h; simp [h]
  | cons d m ih =>
    obtain ⟨k, x⟩ := d
    unfold Memory.write at h
    split at h
    · split at h
      · exact .inl h
      · rcases List.mem_cons.1 h with rfl | h'
        · exact .inr rfl
        · exact .inl h'
    · split at h
      · next hki =>
        split at h
        · exact .inl (List.mem_cons_of_mem _ h)
        · rcases List.mem_cons.1 h with rfl | h'
          · exact .inr rfl
          · exact .inl (List.mem_cons_of_mem _ h')
      · rcases List.mem_cons.1 h with rfl | h'
        · exact .inl (by simp)
        · rcases ih h' with h'' | h''
          · exact .inl (List.mem_cons_of_mem _ h'')
          · exact .inr h''

/-- A write keeps the canonical form. -/
theorem Memory.wf_write {m : Memory α} (hm : Memory.wf m = true) (i : Nat) (v : α) :
    Memory.wf (Memory.write m i v) = true := by
  induction m with
  | nil => by_cases hv : v = Memory.stale <;> simp [Memory.write, hv, Memory.wf_cons]
  | cons c m ih =>
    obtain ⟨k, x⟩ := c
    obtain ⟨hx, hlt, hwf⟩ := (Memory.wf_cons k x m).1 hm
    unfold Memory.write
    split
    · next hik =>
      split
      · exact hm
      · next hv =>
        refine (Memory.wf_cons _ _ _).2 ⟨hv, ?_, hm⟩
        intro c hc
        rcases List.mem_cons.1 hc with rfl | hc
        · exact hik
        · exact lt_trans hik (hlt c hc)
    · split
      · next hki =>
        split
        · exact hwf
        · next hv => exact (Memory.wf_cons _ _ _).2 ⟨hv, by simpa [hki] using hlt, hwf⟩
      · next hik hki =>
        refine (Memory.wf_cons _ _ _).2 ⟨hx, ?_, ih hwf⟩
        intro c hc
        rcases Memory.mem_write hc with hc | hc
        · exact hlt c hc
        · omega

/-- A write inside a memory's size keeps it inside its size. -/
theorem Memory.bound_write {m : Memory α} {n i : Nat} {v : α} (hm : ∀ c ∈ m, c.1 < n) (hi : i < n) :
    ∀ c ∈ Memory.write m i v, c.1 < n := by
  intro c hc
  rcases Memory.mem_write hc with h | h
  · exact hm c h
  · omega

/-- A copy keeps the canonical form. -/
theorem Memory.wf_copy (src : Memory α) (n : Nat) {dst : Memory α} (h : Memory.wf dst = true) :
    Memory.wf (Memory.copy src n dst) = true := by
  induction n with
  | zero => exact h
  | succ n ih => exact Memory.wf_write ih n _

/-- A copy inside a memory's size keeps it inside its size. -/
theorem Memory.bound_copy (src : Memory α) {n k : Nat} {dst : Memory α} (h : ∀ c ∈ dst, c.1 < k) (hn : n ≤ k) :
    ∀ c ∈ Memory.copy src n dst, c.1 < k := by
  induction n with
  | zero => exact h
  | succ n ih => exact Memory.bound_write (ih (by omega)) (by omega)

/-- What a copied element reads as: the source below `n`, the old content from `n` on. -/
theorem Memory.read_copy (src : Memory α) (n : Nat) {dst : Memory α} (h : Memory.wf dst = true) (i : Nat) :
    Memory.read (Memory.copy src n dst) i = if i < n then Memory.read src i else Memory.read dst i := by
  induction n with
  | zero => simp [Memory.copy]
  | succ n ih =>
    by_cases hi : i = n
    · subst hi
      simp [Memory.copy, Memory.read_write_same (Memory.wf_copy src i h)]
    · rw [Memory.copy, Memory.read_write_other _ _ hi, ih]
      by_cases hlt : i < n
      · simp [hlt, Nat.lt_succ_of_lt hlt]
      · simp [hlt, show ¬ i < n + 1 by omega]

omit [DecidableEq α] in
@[simp] theorem Memory.length_firstN (m : Memory α) (n : Nat) : (Memory.firstN m n).length = n := by
  simp [Memory.firstN]

omit [DecidableEq α] in
theorem Memory.getElem_firstN (m : Memory α) (n i : Nat) (h : i < (Memory.firstN m n).length) :
    (Memory.firstN m n)[i] = Memory.read m i := by
  simp [Memory.firstN]

omit [DecidableEq α] in
/-- Two memories agree on their first `n` elements exactly when each of those reads the same. -/
theorem Memory.firstN_eq_iff (m m' : Memory α) (n : Nat) :
    Memory.firstN m n = Memory.firstN m' n ↔ ∀ i < n, Memory.read m i = Memory.read m' i := by
  simp [Memory.firstN, List.map_inj_left]

end Sys2Proof.Machine
end

