-- ==== Sys2Proof/Laws/State.lean ====
section
/-! SUPPORT. One lemma per field per state update, each true by rfl, so that no proof unfolds a record update. -/

namespace Sys2Proof.Machine

set_option Elab.async false


/-! ### `State.setCfg` -/

@[simp] theorem State.setCfg_build (s : State) (v : CfgRegs) : (s.setCfg v).build = s.build := rfl
@[simp] theorem State.setCfg_cfg (s : State) (v : CfgRegs) : (s.setCfg v).cfg = v := rfl
@[simp] theorem State.setCfg_txq (s : State) (v : CfgRegs) : (s.setCfg v).txq = s.txq := rfl
@[simp] theorem State.setCfg_rxq (s : State) (v : CfgRegs) : (s.setCfg v).rxq = s.rxq := rfl
@[simp] theorem State.setCfg_cr (s : State) (v : CfgRegs) : (s.setCfg v).cr = s.cr := rfl
@[simp] theorem State.setCfg_dm (s : State) (v : CfgRegs) : (s.setCfg v).dm = s.dm := rfl
@[simp] theorem State.setCfg_md (s : State) (v : CfgRegs) : (s.setCfg v).md = s.md := rfl
@[simp] theorem State.setCfg_crcAcc (s : State) (v : CfgRegs) : (s.setCfg v).crcAcc = s.crcAcc := rfl
@[simp] theorem State.setCfg_fc (s : State) (v : CfgRegs) : (s.setCfg v).fc = s.fc := rfl
@[simp] theorem State.setCfg_fac (s : State) (v : CfgRegs) : (s.setCfg v).fac = s.fac := rfl
@[simp] theorem State.setCfg_byteOut (s : State) (v : CfgRegs) : (s.setCfg v).byteOut = s.byteOut := rfl
@[simp] theorem State.setCfg_trace (s : State) (v : CfgRegs) : (s.setCfg v).trace = s.trace := rfl
@[simp] theorem State.setCfg_portT (s : State) (v : CfgRegs) : (s.setCfg v).portT = s.portT := rfl
@[simp] theorem State.setCfg_portA (s : State) (v : CfgRegs) : (s.setCfg v).portA = s.portA := rfl
@[simp] theorem State.setCfg_portOrder (s : State) (v : CfgRegs) : (s.setCfg v).portOrder = s.portOrder := rfl
@[simp] theorem State.setCfg_resetIn (s : State) (v : CfgRegs) : (s.setCfg v).resetIn = s.resetIn := rfl
@[simp] theorem State.setCfg_serving (s : State) (v : CfgRegs) : (s.setCfg v).serving = s.serving := rfl
@[simp] theorem State.setCfg_cmdReg (s : State) (v : CfgRegs) : (s.setCfg v).cmdReg = s.cmdReg := rfl

/-! ### `State.setTxq` -/

@[simp] theorem State.setTxq_build (s : State) (v : QueueRegs) : (s.setTxq v).build = s.build := rfl
@[simp] theorem State.setTxq_cfg (s : State) (v : QueueRegs) : (s.setTxq v).cfg = s.cfg := rfl
@[simp] theorem State.setTxq_txq (s : State) (v : QueueRegs) : (s.setTxq v).txq = v := rfl
@[simp] theorem State.setTxq_rxq (s : State) (v : QueueRegs) : (s.setTxq v).rxq = s.rxq := rfl
@[simp] theorem State.setTxq_cr (s : State) (v : QueueRegs) : (s.setTxq v).cr = s.cr := rfl
@[simp] theorem State.setTxq_dm (s : State) (v : QueueRegs) : (s.setTxq v).dm = s.dm := rfl
@[simp] theorem State.setTxq_md (s : State) (v : QueueRegs) : (s.setTxq v).md = s.md := rfl
@[simp] theorem State.setTxq_crcAcc (s : State) (v : QueueRegs) : (s.setTxq v).crcAcc = s.crcAcc := rfl
@[simp] theorem State.setTxq_fc (s : State) (v : QueueRegs) : (s.setTxq v).fc = s.fc := rfl
@[simp] theorem State.setTxq_fac (s : State) (v : QueueRegs) : (s.setTxq v).fac = s.fac := rfl
@[simp] theorem State.setTxq_byteOut (s : State) (v : QueueRegs) : (s.setTxq v).byteOut = s.byteOut := rfl
@[simp] theorem State.setTxq_trace (s : State) (v : QueueRegs) : (s.setTxq v).trace = s.trace := rfl
@[simp] theorem State.setTxq_portT (s : State) (v : QueueRegs) : (s.setTxq v).portT = s.portT := rfl
@[simp] theorem State.setTxq_portA (s : State) (v : QueueRegs) : (s.setTxq v).portA = s.portA := rfl
@[simp] theorem State.setTxq_portOrder (s : State) (v : QueueRegs) : (s.setTxq v).portOrder = s.portOrder := rfl
@[simp] theorem State.setTxq_resetIn (s : State) (v : QueueRegs) : (s.setTxq v).resetIn = s.resetIn := rfl
@[simp] theorem State.setTxq_serving (s : State) (v : QueueRegs) : (s.setTxq v).serving = s.serving := rfl
@[simp] theorem State.setTxq_cmdReg (s : State) (v : QueueRegs) : (s.setTxq v).cmdReg = s.cmdReg := rfl

/-! ### `State.setRxq` -/

@[simp] theorem State.setRxq_build (s : State) (v : QueueRegs) : (s.setRxq v).build = s.build := rfl
@[simp] theorem State.setRxq_cfg (s : State) (v : QueueRegs) : (s.setRxq v).cfg = s.cfg := rfl
@[simp] theorem State.setRxq_txq (s : State) (v : QueueRegs) : (s.setRxq v).txq = s.txq := rfl
@[simp] theorem State.setRxq_rxq (s : State) (v : QueueRegs) : (s.setRxq v).rxq = v := rfl
@[simp] theorem State.setRxq_cr (s : State) (v : QueueRegs) : (s.setRxq v).cr = s.cr := rfl
@[simp] theorem State.setRxq_dm (s : State) (v : QueueRegs) : (s.setRxq v).dm = s.dm := rfl
@[simp] theorem State.setRxq_md (s : State) (v : QueueRegs) : (s.setRxq v).md = s.md := rfl
@[simp] theorem State.setRxq_crcAcc (s : State) (v : QueueRegs) : (s.setRxq v).crcAcc = s.crcAcc := rfl
@[simp] theorem State.setRxq_fc (s : State) (v : QueueRegs) : (s.setRxq v).fc = s.fc := rfl
@[simp] theorem State.setRxq_fac (s : State) (v : QueueRegs) : (s.setRxq v).fac = s.fac := rfl
@[simp] theorem State.setRxq_byteOut (s : State) (v : QueueRegs) : (s.setRxq v).byteOut = s.byteOut := rfl
@[simp] theorem State.setRxq_trace (s : State) (v : QueueRegs) : (s.setRxq v).trace = s.trace := rfl
@[simp] theorem State.setRxq_portT (s : State) (v : QueueRegs) : (s.setRxq v).portT = s.portT := rfl
@[simp] theorem State.setRxq_portA (s : State) (v : QueueRegs) : (s.setRxq v).portA = s.portA := rfl
@[simp] theorem State.setRxq_portOrder (s : State) (v : QueueRegs) : (s.setRxq v).portOrder = s.portOrder := rfl
@[simp] theorem State.setRxq_resetIn (s : State) (v : QueueRegs) : (s.setRxq v).resetIn = s.resetIn := rfl
@[simp] theorem State.setRxq_serving (s : State) (v : QueueRegs) : (s.setRxq v).serving = s.serving := rfl
@[simp] theorem State.setRxq_cmdReg (s : State) (v : QueueRegs) : (s.setRxq v).cmdReg = s.cmdReg := rfl

/-! ### `State.setCr` -/

@[simp] theorem State.setCr_build (s : State) (v : CrRegs) : (s.setCr v).build = s.build := rfl
@[simp] theorem State.setCr_cfg (s : State) (v : CrRegs) : (s.setCr v).cfg = s.cfg := rfl
@[simp] theorem State.setCr_txq (s : State) (v : CrRegs) : (s.setCr v).txq = s.txq := rfl
@[simp] theorem State.setCr_rxq (s : State) (v : CrRegs) : (s.setCr v).rxq = s.rxq := rfl
@[simp] theorem State.setCr_cr (s : State) (v : CrRegs) : (s.setCr v).cr = v := rfl
@[simp] theorem State.setCr_dm (s : State) (v : CrRegs) : (s.setCr v).dm = s.dm := rfl
@[simp] theorem State.setCr_md (s : State) (v : CrRegs) : (s.setCr v).md = s.md := rfl
@[simp] theorem State.setCr_crcAcc (s : State) (v : CrRegs) : (s.setCr v).crcAcc = s.crcAcc := rfl
@[simp] theorem State.setCr_fc (s : State) (v : CrRegs) : (s.setCr v).fc = s.fc := rfl
@[simp] theorem State.setCr_fac (s : State) (v : CrRegs) : (s.setCr v).fac = s.fac := rfl
@[simp] theorem State.setCr_byteOut (s : State) (v : CrRegs) : (s.setCr v).byteOut = s.byteOut := rfl
@[simp] theorem State.setCr_trace (s : State) (v : CrRegs) : (s.setCr v).trace = s.trace := rfl
@[simp] theorem State.setCr_portT (s : State) (v : CrRegs) : (s.setCr v).portT = s.portT := rfl
@[simp] theorem State.setCr_portA (s : State) (v : CrRegs) : (s.setCr v).portA = s.portA := rfl
@[simp] theorem State.setCr_portOrder (s : State) (v : CrRegs) : (s.setCr v).portOrder = s.portOrder := rfl
@[simp] theorem State.setCr_resetIn (s : State) (v : CrRegs) : (s.setCr v).resetIn = s.resetIn := rfl
@[simp] theorem State.setCr_serving (s : State) (v : CrRegs) : (s.setCr v).serving = s.serving := rfl
@[simp] theorem State.setCr_cmdReg (s : State) (v : CrRegs) : (s.setCr v).cmdReg = s.cmdReg := rfl

/-! ### `State.setDm` -/

@[simp] theorem State.setDm_build (s : State) (v : DmRegs) : (s.setDm v).build = s.build := rfl
@[simp] theorem State.setDm_cfg (s : State) (v : DmRegs) : (s.setDm v).cfg = s.cfg := rfl
@[simp] theorem State.setDm_txq (s : State) (v : DmRegs) : (s.setDm v).txq = s.txq := rfl
@[simp] theorem State.setDm_rxq (s : State) (v : DmRegs) : (s.setDm v).rxq = s.rxq := rfl
@[simp] theorem State.setDm_cr (s : State) (v : DmRegs) : (s.setDm v).cr = s.cr := rfl
@[simp] theorem State.setDm_dm (s : State) (v : DmRegs) : (s.setDm v).dm = v := rfl
@[simp] theorem State.setDm_md (s : State) (v : DmRegs) : (s.setDm v).md = s.md := rfl
@[simp] theorem State.setDm_crcAcc (s : State) (v : DmRegs) : (s.setDm v).crcAcc = s.crcAcc := rfl
@[simp] theorem State.setDm_fc (s : State) (v : DmRegs) : (s.setDm v).fc = s.fc := rfl
@[simp] theorem State.setDm_fac (s : State) (v : DmRegs) : (s.setDm v).fac = s.fac := rfl
@[simp] theorem State.setDm_byteOut (s : State) (v : DmRegs) : (s.setDm v).byteOut = s.byteOut := rfl
@[simp] theorem State.setDm_trace (s : State) (v : DmRegs) : (s.setDm v).trace = s.trace := rfl
@[simp] theorem State.setDm_portT (s : State) (v : DmRegs) : (s.setDm v).portT = s.portT := rfl
@[simp] theorem State.setDm_portA (s : State) (v : DmRegs) : (s.setDm v).portA = s.portA := rfl
@[simp] theorem State.setDm_portOrder (s : State) (v : DmRegs) : (s.setDm v).portOrder = s.portOrder := rfl
@[simp] theorem State.setDm_resetIn (s : State) (v : DmRegs) : (s.setDm v).resetIn = s.resetIn := rfl
@[simp] theorem State.setDm_serving (s : State) (v : DmRegs) : (s.setDm v).serving = s.serving := rfl
@[simp] theorem State.setDm_cmdReg (s : State) (v : DmRegs) : (s.setDm v).cmdReg = s.cmdReg := rfl

/-! ### `State.setMd` -/

@[simp] theorem State.setMd_build (s : State) (v : MdRegs) : (s.setMd v).build = s.build := rfl
@[simp] theorem State.setMd_cfg (s : State) (v : MdRegs) : (s.setMd v).cfg = s.cfg := rfl
@[simp] theorem State.setMd_txq (s : State) (v : MdRegs) : (s.setMd v).txq = s.txq := rfl
@[simp] theorem State.setMd_rxq (s : State) (v : MdRegs) : (s.setMd v).rxq = s.rxq := rfl
@[simp] theorem State.setMd_cr (s : State) (v : MdRegs) : (s.setMd v).cr = s.cr := rfl
@[simp] theorem State.setMd_dm (s : State) (v : MdRegs) : (s.setMd v).dm = s.dm := rfl
@[simp] theorem State.setMd_md (s : State) (v : MdRegs) : (s.setMd v).md = v := rfl
@[simp] theorem State.setMd_crcAcc (s : State) (v : MdRegs) : (s.setMd v).crcAcc = s.crcAcc := rfl
@[simp] theorem State.setMd_fc (s : State) (v : MdRegs) : (s.setMd v).fc = s.fc := rfl
@[simp] theorem State.setMd_fac (s : State) (v : MdRegs) : (s.setMd v).fac = s.fac := rfl
@[simp] theorem State.setMd_byteOut (s : State) (v : MdRegs) : (s.setMd v).byteOut = s.byteOut := rfl
@[simp] theorem State.setMd_trace (s : State) (v : MdRegs) : (s.setMd v).trace = s.trace := rfl
@[simp] theorem State.setMd_portT (s : State) (v : MdRegs) : (s.setMd v).portT = s.portT := rfl
@[simp] theorem State.setMd_portA (s : State) (v : MdRegs) : (s.setMd v).portA = s.portA := rfl
@[simp] theorem State.setMd_portOrder (s : State) (v : MdRegs) : (s.setMd v).portOrder = s.portOrder := rfl
@[simp] theorem State.setMd_resetIn (s : State) (v : MdRegs) : (s.setMd v).resetIn = s.resetIn := rfl
@[simp] theorem State.setMd_serving (s : State) (v : MdRegs) : (s.setMd v).serving = s.serving := rfl
@[simp] theorem State.setMd_cmdReg (s : State) (v : MdRegs) : (s.setMd v).cmdReg = s.cmdReg := rfl

/-! ### `State.setCrcAcc` -/

@[simp] theorem State.setCrcAcc_build (s : State) (v : BitVec 16) : (s.setCrcAcc v).build = s.build := rfl
@[simp] theorem State.setCrcAcc_cfg (s : State) (v : BitVec 16) : (s.setCrcAcc v).cfg = s.cfg := rfl
@[simp] theorem State.setCrcAcc_txq (s : State) (v : BitVec 16) : (s.setCrcAcc v).txq = s.txq := rfl
@[simp] theorem State.setCrcAcc_rxq (s : State) (v : BitVec 16) : (s.setCrcAcc v).rxq = s.rxq := rfl
@[simp] theorem State.setCrcAcc_cr (s : State) (v : BitVec 16) : (s.setCrcAcc v).cr = s.cr := rfl
@[simp] theorem State.setCrcAcc_dm (s : State) (v : BitVec 16) : (s.setCrcAcc v).dm = s.dm := rfl
@[simp] theorem State.setCrcAcc_md (s : State) (v : BitVec 16) : (s.setCrcAcc v).md = s.md := rfl
@[simp] theorem State.setCrcAcc_crcAcc (s : State) (v : BitVec 16) : (s.setCrcAcc v).crcAcc = v := rfl
@[simp] theorem State.setCrcAcc_fc (s : State) (v : BitVec 16) : (s.setCrcAcc v).fc = s.fc := rfl
@[simp] theorem State.setCrcAcc_fac (s : State) (v : BitVec 16) : (s.setCrcAcc v).fac = s.fac := rfl
@[simp] theorem State.setCrcAcc_byteOut (s : State) (v : BitVec 16) : (s.setCrcAcc v).byteOut = s.byteOut := rfl
@[simp] theorem State.setCrcAcc_trace (s : State) (v : BitVec 16) : (s.setCrcAcc v).trace = s.trace := rfl
@[simp] theorem State.setCrcAcc_portT (s : State) (v : BitVec 16) : (s.setCrcAcc v).portT = s.portT := rfl
@[simp] theorem State.setCrcAcc_portA (s : State) (v : BitVec 16) : (s.setCrcAcc v).portA = s.portA := rfl
@[simp] theorem State.setCrcAcc_portOrder (s : State) (v : BitVec 16) : (s.setCrcAcc v).portOrder = s.portOrder := rfl
@[simp] theorem State.setCrcAcc_resetIn (s : State) (v : BitVec 16) : (s.setCrcAcc v).resetIn = s.resetIn := rfl
@[simp] theorem State.setCrcAcc_serving (s : State) (v : BitVec 16) : (s.setCrcAcc v).serving = s.serving := rfl
@[simp] theorem State.setCrcAcc_cmdReg (s : State) (v : BitVec 16) : (s.setCrcAcc v).cmdReg = s.cmdReg := rfl

/-! ### `State.setFc` -/

@[simp] theorem State.setFc_build (s : State) (v : FcRegs) : (s.setFc v).build = s.build := rfl
@[simp] theorem State.setFc_cfg (s : State) (v : FcRegs) : (s.setFc v).cfg = s.cfg := rfl
@[simp] theorem State.setFc_txq (s : State) (v : FcRegs) : (s.setFc v).txq = s.txq := rfl
@[simp] theorem State.setFc_rxq (s : State) (v : FcRegs) : (s.setFc v).rxq = s.rxq := rfl
@[simp] theorem State.setFc_cr (s : State) (v : FcRegs) : (s.setFc v).cr = s.cr := rfl
@[simp] theorem State.setFc_dm (s : State) (v : FcRegs) : (s.setFc v).dm = s.dm := rfl
@[simp] theorem State.setFc_md (s : State) (v : FcRegs) : (s.setFc v).md = s.md := rfl
@[simp] theorem State.setFc_crcAcc (s : State) (v : FcRegs) : (s.setFc v).crcAcc = s.crcAcc := rfl
@[simp] theorem State.setFc_fc (s : State) (v : FcRegs) : (s.setFc v).fc = v := rfl
@[simp] theorem State.setFc_fac (s : State) (v : FcRegs) : (s.setFc v).fac = s.fac := rfl
@[simp] theorem State.setFc_byteOut (s : State) (v : FcRegs) : (s.setFc v).byteOut = s.byteOut := rfl
@[simp] theorem State.setFc_trace (s : State) (v : FcRegs) : (s.setFc v).trace = s.trace := rfl
@[simp] theorem State.setFc_portT (s : State) (v : FcRegs) : (s.setFc v).portT = s.portT := rfl
@[simp] theorem State.setFc_portA (s : State) (v : FcRegs) : (s.setFc v).portA = s.portA := rfl
@[simp] theorem State.setFc_portOrder (s : State) (v : FcRegs) : (s.setFc v).portOrder = s.portOrder := rfl
@[simp] theorem State.setFc_resetIn (s : State) (v : FcRegs) : (s.setFc v).resetIn = s.resetIn := rfl
@[simp] theorem State.setFc_serving (s : State) (v : FcRegs) : (s.setFc v).serving = s.serving := rfl
@[simp] theorem State.setFc_cmdReg (s : State) (v : FcRegs) : (s.setFc v).cmdReg = s.cmdReg := rfl

/-! ### `State.setFac` -/

@[simp] theorem State.setFac_build (s : State) (v : FacRegs) : (s.setFac v).build = s.build := rfl
@[simp] theorem State.setFac_cfg (s : State) (v : FacRegs) : (s.setFac v).cfg = s.cfg := rfl
@[simp] theorem State.setFac_txq (s : State) (v : FacRegs) : (s.setFac v).txq = s.txq := rfl
@[simp] theorem State.setFac_rxq (s : State) (v : FacRegs) : (s.setFac v).rxq = s.rxq := rfl
@[simp] theorem State.setFac_cr (s : State) (v : FacRegs) : (s.setFac v).cr = s.cr := rfl
@[simp] theorem State.setFac_dm (s : State) (v : FacRegs) : (s.setFac v).dm = s.dm := rfl
@[simp] theorem State.setFac_md (s : State) (v : FacRegs) : (s.setFac v).md = s.md := rfl
@[simp] theorem State.setFac_crcAcc (s : State) (v : FacRegs) : (s.setFac v).crcAcc = s.crcAcc := rfl
@[simp] theorem State.setFac_fc (s : State) (v : FacRegs) : (s.setFac v).fc = s.fc := rfl
@[simp] theorem State.setFac_fac (s : State) (v : FacRegs) : (s.setFac v).fac = v := rfl
@[simp] theorem State.setFac_byteOut (s : State) (v : FacRegs) : (s.setFac v).byteOut = s.byteOut := rfl
@[simp] theorem State.setFac_trace (s : State) (v : FacRegs) : (s.setFac v).trace = s.trace := rfl
@[simp] theorem State.setFac_portT (s : State) (v : FacRegs) : (s.setFac v).portT = s.portT := rfl
@[simp] theorem State.setFac_portA (s : State) (v : FacRegs) : (s.setFac v).portA = s.portA := rfl
@[simp] theorem State.setFac_portOrder (s : State) (v : FacRegs) : (s.setFac v).portOrder = s.portOrder := rfl
@[simp] theorem State.setFac_resetIn (s : State) (v : FacRegs) : (s.setFac v).resetIn = s.resetIn := rfl
@[simp] theorem State.setFac_serving (s : State) (v : FacRegs) : (s.setFac v).serving = s.serving := rfl
@[simp] theorem State.setFac_cmdReg (s : State) (v : FacRegs) : (s.setFac v).cmdReg = s.cmdReg := rfl

/-! ### `State.event` -/

@[simp] theorem State.event_build (s : State) (e : Event) : (s.event e).build = s.build := rfl
@[simp] theorem State.event_cfg (s : State) (e : Event) : (s.event e).cfg = s.cfg := rfl
@[simp] theorem State.event_txq (s : State) (e : Event) : (s.event e).txq = s.txq := rfl
@[simp] theorem State.event_rxq (s : State) (e : Event) : (s.event e).rxq = s.rxq := rfl
@[simp] theorem State.event_cr (s : State) (e : Event) : (s.event e).cr = s.cr := rfl
@[simp] theorem State.event_dm (s : State) (e : Event) : (s.event e).dm = s.dm := rfl
@[simp] theorem State.event_md (s : State) (e : Event) : (s.event e).md = s.md := rfl
@[simp] theorem State.event_crcAcc (s : State) (e : Event) : (s.event e).crcAcc = s.crcAcc := rfl
@[simp] theorem State.event_fc (s : State) (e : Event) : (s.event e).fc = s.fc := rfl
@[simp] theorem State.event_fac (s : State) (e : Event) : (s.event e).fac = s.fac := rfl
@[simp] theorem State.event_byteOut (s : State) (e : Event) : (s.event e).byteOut = s.byteOut := rfl
@[simp] theorem State.event_trace (s : State) (e : Event) : (s.event e).trace = s.trace ++ [e] := rfl
@[simp] theorem State.event_portT (s : State) (e : Event) : (s.event e).portT = s.portT := rfl
@[simp] theorem State.event_portA (s : State) (e : Event) : (s.event e).portA = s.portA := rfl
@[simp] theorem State.event_portOrder (s : State) (e : Event) : (s.event e).portOrder = s.portOrder := rfl
@[simp] theorem State.event_resetIn (s : State) (e : Event) : (s.event e).resetIn = s.resetIn := rfl
@[simp] theorem State.event_serving (s : State) (e : Event) : (s.event e).serving = s.serving := rfl
@[simp] theorem State.event_cmdReg (s : State) (e : Event) : (s.event e).cmdReg = s.cmdReg := rfl

/-! ### `State.eventIf` -/

@[simp] theorem State.eventIf_build (s : State) (c : Bool) (e : Event) : (s.eventIf c e).build = s.build := rfl
@[simp] theorem State.eventIf_cfg (s : State) (c : Bool) (e : Event) : (s.eventIf c e).cfg = s.cfg := rfl
@[simp] theorem State.eventIf_txq (s : State) (c : Bool) (e : Event) : (s.eventIf c e).txq = s.txq := rfl
@[simp] theorem State.eventIf_rxq (s : State) (c : Bool) (e : Event) : (s.eventIf c e).rxq = s.rxq := rfl
@[simp] theorem State.eventIf_cr (s : State) (c : Bool) (e : Event) : (s.eventIf c e).cr = s.cr := rfl
@[simp] theorem State.eventIf_dm (s : State) (c : Bool) (e : Event) : (s.eventIf c e).dm = s.dm := rfl
@[simp] theorem State.eventIf_md (s : State) (c : Bool) (e : Event) : (s.eventIf c e).md = s.md := rfl
@[simp] theorem State.eventIf_crcAcc (s : State) (c : Bool) (e : Event) : (s.eventIf c e).crcAcc = s.crcAcc := rfl
@[simp] theorem State.eventIf_fc (s : State) (c : Bool) (e : Event) : (s.eventIf c e).fc = s.fc := rfl
@[simp] theorem State.eventIf_fac (s : State) (c : Bool) (e : Event) : (s.eventIf c e).fac = s.fac := rfl
@[simp] theorem State.eventIf_byteOut (s : State) (c : Bool) (e : Event) : (s.eventIf c e).byteOut = s.byteOut := rfl
@[simp] theorem State.eventIf_trace (s : State) (c : Bool) (e : Event) : (s.eventIf c e).trace = s.trace ++ (if c then [e] else []) := rfl
@[simp] theorem State.eventIf_portT (s : State) (c : Bool) (e : Event) : (s.eventIf c e).portT = s.portT := rfl
@[simp] theorem State.eventIf_portA (s : State) (c : Bool) (e : Event) : (s.eventIf c e).portA = s.portA := rfl
@[simp] theorem State.eventIf_portOrder (s : State) (c : Bool) (e : Event) : (s.eventIf c e).portOrder = s.portOrder := rfl
@[simp] theorem State.eventIf_resetIn (s : State) (c : Bool) (e : Event) : (s.eventIf c e).resetIn = s.resetIn := rfl
@[simp] theorem State.eventIf_serving (s : State) (c : Bool) (e : Event) : (s.eventIf c e).serving = s.serving := rfl
@[simp] theorem State.eventIf_cmdReg (s : State) (c : Bool) (e : Event) : (s.eventIf c e).cmdReg = s.cmdReg := rfl

/-! ### `State.emit` -/

@[simp] theorem State.emit_build (s : State) (os : List (BitVec 8)) : (s.emit os).build = s.build := rfl
@[simp] theorem State.emit_cfg (s : State) (os : List (BitVec 8)) : (s.emit os).cfg = s.cfg := rfl
@[simp] theorem State.emit_txq (s : State) (os : List (BitVec 8)) : (s.emit os).txq = s.txq := rfl
@[simp] theorem State.emit_rxq (s : State) (os : List (BitVec 8)) : (s.emit os).rxq = s.rxq := rfl
@[simp] theorem State.emit_cr (s : State) (os : List (BitVec 8)) : (s.emit os).cr = s.cr := rfl
@[simp] theorem State.emit_dm (s : State) (os : List (BitVec 8)) : (s.emit os).dm = s.dm := rfl
@[simp] theorem State.emit_md (s : State) (os : List (BitVec 8)) : (s.emit os).md = s.md := rfl
@[simp] theorem State.emit_crcAcc (s : State) (os : List (BitVec 8)) : (s.emit os).crcAcc = s.crcAcc := rfl
@[simp] theorem State.emit_fc (s : State) (os : List (BitVec 8)) : (s.emit os).fc = s.fc := rfl
@[simp] theorem State.emit_fac (s : State) (os : List (BitVec 8)) : (s.emit os).fac = s.fac := rfl
@[simp] theorem State.emit_byteOut (s : State) (os : List (BitVec 8)) : (s.emit os).byteOut = s.byteOut ++ os := rfl
@[simp] theorem State.emit_trace (s : State) (os : List (BitVec 8)) : (s.emit os).trace = s.trace := rfl
@[simp] theorem State.emit_portT (s : State) (os : List (BitVec 8)) : (s.emit os).portT = s.portT := rfl
@[simp] theorem State.emit_portA (s : State) (os : List (BitVec 8)) : (s.emit os).portA = s.portA := rfl
@[simp] theorem State.emit_portOrder (s : State) (os : List (BitVec 8)) : (s.emit os).portOrder = s.portOrder := rfl
@[simp] theorem State.emit_resetIn (s : State) (os : List (BitVec 8)) : (s.emit os).resetIn = s.resetIn := rfl
@[simp] theorem State.emit_serving (s : State) (os : List (BitVec 8)) : (s.emit os).serving = s.serving := rfl
@[simp] theorem State.emit_cmdReg (s : State) (os : List (BitVec 8)) : (s.emit os).cmdReg = s.cmdReg := rfl

/-! ### `State.setCfgErr` -/

@[simp] theorem State.setCfgErr_build (s : State) (e : Bool) : (s.setCfgErr e).build = s.build := rfl
@[simp] theorem State.setCfgErr_cfg (s : State) (e : Bool) : (s.setCfgErr e).cfg = s.cfg := rfl
@[simp] theorem State.setCfgErr_txq (s : State) (e : Bool) : (s.setCfgErr e).txq = s.txq := rfl
@[simp] theorem State.setCfgErr_rxq (s : State) (e : Bool) : (s.setCfgErr e).rxq = s.rxq := rfl
@[simp] theorem State.setCfgErr_cr (s : State) (e : Bool) : (s.setCfgErr e).cr = s.cr := rfl
@[simp] theorem State.setCfgErr_dm (s : State) (e : Bool) : (s.setCfgErr e).dm = s.dm := rfl
@[simp] theorem State.setCfgErr_md (s : State) (e : Bool) : (s.setCfgErr e).md = s.md := rfl
@[simp] theorem State.setCfgErr_crcAcc (s : State) (e : Bool) : (s.setCfgErr e).crcAcc = s.crcAcc := rfl
@[simp] theorem State.setCfgErr_fc (s : State) (e : Bool) : (s.setCfgErr e).fc = s.fc := rfl
@[simp] theorem State.setCfgErr_fac (s : State) (e : Bool) : (s.setCfgErr e).fac = { s.fac with cfgErr := e } := rfl
@[simp] theorem State.setCfgErr_byteOut (s : State) (e : Bool) : (s.setCfgErr e).byteOut = s.byteOut := rfl
@[simp] theorem State.setCfgErr_trace (s : State) (e : Bool) : (s.setCfgErr e).trace = s.trace := rfl
@[simp] theorem State.setCfgErr_portT (s : State) (e : Bool) : (s.setCfgErr e).portT = s.portT := rfl
@[simp] theorem State.setCfgErr_portA (s : State) (e : Bool) : (s.setCfgErr e).portA = s.portA := rfl
@[simp] theorem State.setCfgErr_portOrder (s : State) (e : Bool) : (s.setCfgErr e).portOrder = s.portOrder := rfl
@[simp] theorem State.setCfgErr_resetIn (s : State) (e : Bool) : (s.setCfgErr e).resetIn = s.resetIn := rfl
@[simp] theorem State.setCfgErr_serving (s : State) (e : Bool) : (s.setCfgErr e).serving = s.serving := rfl
@[simp] theorem State.setCfgErr_cmdReg (s : State) (e : Bool) : (s.setCfgErr e).cmdReg = s.cmdReg := rfl

/-! ### `State.clearTxq` -/

@[simp] theorem State.clearTxq_build (s : State) : (s.clearTxq).build = s.build := rfl
@[simp] theorem State.clearTxq_cfg (s : State) : (s.clearTxq).cfg = s.cfg := rfl
@[simp] theorem State.clearTxq_txq (s : State) : (s.clearTxq).txq = s.txq.cleared := rfl
@[simp] theorem State.clearTxq_rxq (s : State) : (s.clearTxq).rxq = s.rxq := rfl
@[simp] theorem State.clearTxq_cr (s : State) : (s.clearTxq).cr = s.cr := rfl
@[simp] theorem State.clearTxq_dm (s : State) : (s.clearTxq).dm = s.dm := rfl
@[simp] theorem State.clearTxq_md (s : State) : (s.clearTxq).md = s.md := rfl
@[simp] theorem State.clearTxq_crcAcc (s : State) : (s.clearTxq).crcAcc = s.crcAcc := rfl
@[simp] theorem State.clearTxq_fc (s : State) : (s.clearTxq).fc = s.fc := rfl
@[simp] theorem State.clearTxq_fac (s : State) : (s.clearTxq).fac = s.fac := rfl
@[simp] theorem State.clearTxq_byteOut (s : State) : (s.clearTxq).byteOut = s.byteOut := rfl
@[simp] theorem State.clearTxq_trace (s : State) : (s.clearTxq).trace = s.trace := rfl
@[simp] theorem State.clearTxq_portT (s : State) : (s.clearTxq).portT = s.portT := rfl
@[simp] theorem State.clearTxq_portA (s : State) : (s.clearTxq).portA = s.portA := rfl
@[simp] theorem State.clearTxq_portOrder (s : State) : (s.clearTxq).portOrder = s.portOrder := rfl
@[simp] theorem State.clearTxq_resetIn (s : State) : (s.clearTxq).resetIn = s.resetIn := rfl
@[simp] theorem State.clearTxq_serving (s : State) : (s.clearTxq).serving = s.serving := rfl
@[simp] theorem State.clearTxq_cmdReg (s : State) : (s.clearTxq).cmdReg = s.cmdReg := rfl

/-! ### `State.clearRxq` -/

@[simp] theorem State.clearRxq_build (s : State) : (s.clearRxq).build = s.build := rfl
@[simp] theorem State.clearRxq_cfg (s : State) : (s.clearRxq).cfg = s.cfg := rfl
@[simp] theorem State.clearRxq_txq (s : State) : (s.clearRxq).txq = s.txq := rfl
@[simp] theorem State.clearRxq_rxq (s : State) : (s.clearRxq).rxq = s.rxq.cleared := rfl
@[simp] theorem State.clearRxq_cr (s : State) : (s.clearRxq).cr = s.cr := rfl
@[simp] theorem State.clearRxq_dm (s : State) : (s.clearRxq).dm = s.dm := rfl
@[simp] theorem State.clearRxq_md (s : State) : (s.clearRxq).md = s.md := rfl
@[simp] theorem State.clearRxq_crcAcc (s : State) : (s.clearRxq).crcAcc = s.crcAcc := rfl
@[simp] theorem State.clearRxq_fc (s : State) : (s.clearRxq).fc = s.fc := rfl
@[simp] theorem State.clearRxq_fac (s : State) : (s.clearRxq).fac = s.fac := rfl
@[simp] theorem State.clearRxq_byteOut (s : State) : (s.clearRxq).byteOut = s.byteOut := rfl
@[simp] theorem State.clearRxq_trace (s : State) : (s.clearRxq).trace = s.trace := rfl
@[simp] theorem State.clearRxq_portT (s : State) : (s.clearRxq).portT = s.portT := rfl
@[simp] theorem State.clearRxq_portA (s : State) : (s.clearRxq).portA = s.portA := rfl
@[simp] theorem State.clearRxq_portOrder (s : State) : (s.clearRxq).portOrder = s.portOrder := rfl
@[simp] theorem State.clearRxq_resetIn (s : State) : (s.clearRxq).resetIn = s.resetIn := rfl
@[simp] theorem State.clearRxq_serving (s : State) : (s.clearRxq).serving = s.serving := rfl
@[simp] theorem State.clearRxq_cmdReg (s : State) : (s.clearRxq).cmdReg = s.cmdReg := rfl

/-! ### `State.setPort` -/

@[simp] theorem State.setPort_build (s : State) (p : Port) (ps : PortState) : (s.setPort p ps).build = s.build := rfl
@[simp] theorem State.setPort_cfg (s : State) (p : Port) (ps : PortState) : (s.setPort p ps).cfg = s.cfg := rfl
@[simp] theorem State.setPort_txq (s : State) (p : Port) (ps : PortState) : (s.setPort p ps).txq = s.txq := rfl
@[simp] theorem State.setPort_rxq (s : State) (p : Port) (ps : PortState) : (s.setPort p ps).rxq = s.rxq := rfl
@[simp] theorem State.setPort_cr (s : State) (p : Port) (ps : PortState) : (s.setPort p ps).cr = s.cr := rfl
@[simp] theorem State.setPort_dm (s : State) (p : Port) (ps : PortState) : (s.setPort p ps).dm = s.dm := rfl
@[simp] theorem State.setPort_md (s : State) (p : Port) (ps : PortState) : (s.setPort p ps).md = s.md := rfl
@[simp] theorem State.setPort_crcAcc (s : State) (p : Port) (ps : PortState) : (s.setPort p ps).crcAcc = s.crcAcc := rfl
@[simp] theorem State.setPort_fc (s : State) (p : Port) (ps : PortState) : (s.setPort p ps).fc = s.fc := rfl
@[simp] theorem State.setPort_fac (s : State) (p : Port) (ps : PortState) : (s.setPort p ps).fac = s.fac := rfl
@[simp] theorem State.setPort_byteOut (s : State) (p : Port) (ps : PortState) : (s.setPort p ps).byteOut = s.byteOut := rfl
@[simp] theorem State.setPort_trace (s : State) (p : Port) (ps : PortState) : (s.setPort p ps).trace = s.trace := rfl
@[simp] theorem State.setPort_portOrder (s : State) (p : Port) (ps : PortState) : (s.setPort p ps).portOrder = s.portOrder := rfl
@[simp] theorem State.setPort_resetIn (s : State) (p : Port) (ps : PortState) : (s.setPort p ps).resetIn = s.resetIn := rfl
@[simp] theorem State.setPort_serving (s : State) (p : Port) (ps : PortState) : (s.setPort p ps).serving = s.serving := rfl
@[simp] theorem State.setPort_cmdReg (s : State) (p : Port) (ps : PortState) : (s.setPort p ps).cmdReg = s.cmdReg := rfl

/-! ### `State.reply` -/

@[simp] theorem State.reply_build (s : State) (r : Resp) : (s.reply r).build = s.build := rfl
@[simp] theorem State.reply_cfg (s : State) (r : Resp) : (s.reply r).cfg = s.cfg := rfl
@[simp] theorem State.reply_txq (s : State) (r : Resp) : (s.reply r).txq = s.txq := rfl
@[simp] theorem State.reply_rxq (s : State) (r : Resp) : (s.reply r).rxq = s.rxq := rfl
@[simp] theorem State.reply_cr (s : State) (r : Resp) : (s.reply r).cr = s.cr := rfl
@[simp] theorem State.reply_dm (s : State) (r : Resp) : (s.reply r).dm = s.dm := rfl
@[simp] theorem State.reply_md (s : State) (r : Resp) : (s.reply r).md = s.md := rfl
@[simp] theorem State.reply_crcAcc (s : State) (r : Resp) : (s.reply r).crcAcc = s.crcAcc := rfl
@[simp] theorem State.reply_fc (s : State) (r : Resp) : (s.reply r).fc = s.fc := rfl
@[simp] theorem State.reply_fac (s : State) (r : Resp) : (s.reply r).fac = s.fac := rfl
@[simp] theorem State.reply_byteOut (s : State) (r : Resp) : (s.reply r).byteOut = s.byteOut := rfl
@[simp] theorem State.reply_trace (s : State) (r : Resp) : (s.reply r).trace = s.trace := rfl
@[simp] theorem State.reply_portOrder (s : State) (r : Resp) : (s.reply r).portOrder = s.portOrder := rfl
@[simp] theorem State.reply_resetIn (s : State) (r : Resp) : (s.reply r).resetIn = s.resetIn := rfl
@[simp] theorem State.reply_serving (s : State) (r : Resp) : (s.reply r).serving = s.serving := rfl
@[simp] theorem State.reply_cmdReg (s : State) (r : Resp) : (s.reply r).cmdReg = s.cmdReg := rfl

/-! ### Ports -/

@[simp] theorem State.port_setPort_same (s : State) (p : Port) (ps : PortState) : (s.setPort p ps).port p = ps := by
  cases p <;> rfl

theorem State.port_setPort_other (s : State) {p q : Port} (ps : PortState) (h : q ≠ p) :
    (s.setPort p ps).port q = s.port q := by
  cases p <;> cases q <;> first | rfl | exact absurd rfl h

/-- A response is the last word of the serving port's responses (30_encoding.md R81). -/
@[simp] theorem State.reply_responses (s : State) (r : Resp) :
    ((s.reply r).port s.serving).responses = (s.port s.serving).responses ++ [r.word] := by
  simp [State.reply]

/-- A response changes no command that waits on the serving port. -/
@[simp] theorem State.reply_pending (s : State) (r : Resp) :
    ((s.reply r).port s.serving).pending = (s.port s.serving).pending := by
  simp [State.reply]

/-- A response goes to the serving port alone (60_exceptions.md R306). -/
theorem State.reply_port_other (s : State) (r : Resp) {q : Port} (h : q ≠ s.serving) :
    (s.reply r).port q = s.port q :=
  State.port_setPort_other s _ h

/-! ### Queues by name -/

@[simp] theorem State.queue_tx (s : State) : s.queue .tx = s.txq := rfl
@[simp] theorem State.queue_rx (s : State) : s.queue .rx = s.rxq := rfl
@[simp] theorem State.slots_tx (s : State) : s.slots .tx = s.build.txqN := rfl
@[simp] theorem State.slots_rx (s : State) : s.slots .rx = s.build.rxqN := rfl
@[simp] theorem State.setQueue_tx (s : State) (q : QueueRegs) : s.setQueue .tx q = s.setTxq q := rfl
@[simp] theorem State.setQueue_rx (s : State) (q : QueueRegs) : s.setQueue .rx q = s.setRxq q := rfl

/-! ### Ending a command -/

@[simp] theorem finish_eq (s : State) (r : Resp) : finish (s, r) = .next (s.reply r) := rfl

end Sys2Proof.Machine
end

