-- ==== Sys2Proof/Laws/Ops.lean ====
section
/-! SUPPORT. For each shared operation, once, everything it can do: what it answers, what it changes and that it changes
nothing else. Later proofs cite these lemmas and do not unfold the operation. -/

namespace Sys2Proof.Machine

set_option Elab.async false

/-! ## Arithmetic -/

/-- `a mod m` lies in `[0, m)` (00_scope.md R10). -/
theorem imod_lt (a : Int) {m : Nat} (h : 0 < m) : imod a m < m := by
  have h1 := Int.emod_lt_of_pos a (show (0 : Int) < m by omega)
  have h2 := Int.emod_nonneg a (show (m : Int) ≠ 0 by omega)
  unfold imod; omega

/-- `imod` as an integer. -/
theorem imod_cast (a : Int) {m : Nat} (h : 0 < m) : (imod a m : Int) = a % m := by
  have h2 := Int.emod_nonneg a (show (m : Int) ≠ 0 by omega)
  unfold imod; omega

@[simp] theorem imod_natCast (a m : Nat) : imod (a : Int) m = a % m := by
  unfold imod; omega

/-- `asr` of a value of either sign lies between the value and 0 (00_scope.md R10). -/
theorem asr_nonneg {v : Int} (k : Nat) (h : 0 ≤ v) : 0 ≤ asr v k :=
  Int.ediv_nonneg h (by positivity)

theorem asr_le {v : Int} (k : Nat) (h : 0 ≤ v) : asr v k ≤ v :=
  Int.ediv_le_self _ h

theorem asr_nonpos {v : Int} (k : Nat) (h : v ≤ 0) : asr v k ≤ 0 := by
  unfold asr
  have := Int.ediv_le_ediv (show (0 : Int) < 2 ^ k by positivity) h
  simpa using this

theorem le_asr {v : Int} (k : Nat) (h : v ≤ 0) : v ≤ asr v k := by
  unfold asr
  rw [Int.le_ediv_iff_mul_le (by positivity)]
  have h1 : (1 : Int) ≤ 2 ^ k := by exact_mod_cast Nat.one_le_two_pow
  nlinarith

/-- The follower's new value as an integer: nothing is cut (42_demodulator.md R145, R152). -/
theorem approach_cast (v target k : Nat) : (approach v target k : Int) = v + asr ((target : Int) - v) k := by
  unfold approach
  rcases le_total (v : Int) target with h | h
  · have := asr_nonneg (v := (target : Int) - v) k (by omega); omega
  · have := le_asr (v := (target : Int) - v) k (by omega); omega

/-- A mark's new value as an integer when it moves down toward its target (42_demodulator.md R146, R147). -/
theorem recede_cast {v target : Nat} (k : Nat) (h : target ≤ v) :
    (recede v target k : Int) = v - asr ((v : Int) - target) k := by
  unfold recede
  have := asr_le (v := (v : Int) - target) k (by omega); omega

/-- The follower moves toward its target and never past it (42_demodulator.md R152). -/
theorem approach_le_max (v target k : Nat) : approach v target k ≤ max v target := by
  have := approach_cast v target k
  rcases le_total (v : Int) target with h | h
  · have := asr_le (v := (target : Int) - v) k (by omega); omega
  · have := asr_nonpos (v := (target : Int) - v) k (by omega); omega

theorem recede_le {v target : Nat} (k : Nat) (h : target ≤ v) : recede v target k ≤ v := by
  have := recede_cast k h
  have := asr_nonneg (v := (v : Int) - target) k (by omega); omega

/-! ## Configuration -/

/-- `cfgValid()` (10_state.md R23). -/
theorem CfgRegs.valid_iff (c : CfgRegs) :
    c.valid = true ↔
      1 ≤ c.sampleRate.toNat ∧ 1 ≤ c.symbolRate.toNat ∧ 2 ≤ c.sps ∧ c.sps ≤ 65535 := by
  simp [CfgRegs.valid, and_assoc]

/-- The constraints of a build (00_scope.md R9). -/
theorem build_valid_iff (b : Build) :
    b.valid = true ↔
      2 ≤ b.txqN ∧ 2 ≤ b.rxqN ∧ 1 ≤ b.histN ∧ 1 ≤ b.majW ∧ 2 ≤ b.maxFrameLen ∧ b.txbufLen ≤ b.maxFrameLen - 2 ∧
      b.pendLen = b.maxFrameLen - 2 ∧ 1 ≤ b.qtabBits ∧ b.qtabBits ≤ b.phaseBits - 2 ∧ 0 < b.sineAmpl ∧
      b.sineAmpl < 2 ^ (b.sampleBits - 1) := by
  simp [Build.valid, and_assoc]

/-! ## Queues -/

theorem QueueRegs.canPut_iff (n : Nat) (q : QueueRegs) : q.canPut n = true ↔ (q.put + 1) % n ≠ q.get := by
  simp [QueueRegs.canPut]

theorem QueueRegs.canGet_iff (q : QueueRegs) : q.canGet = true ↔ q.put ≠ q.get := by
  simp [QueueRegs.canGet]

/-- Q.PUT answers a next state exactly when there is room (40_queue.md R102). -/
theorem queuePut_next {i : QueueId} {item : Nat} {s t : State} (h : queuePut i item s = .next t) :
    (s.queue i).canPut (s.slots i) = true ∧
      t = (s.setQueue i ((s.queue i).push (s.slots i) item)).reply (respond true 0) := by
  unfold queuePut at h
  split at h
  · next hc => exact ⟨hc, by simpa using h.symm⟩
  · cases h

/-- Q.GET answers a next state exactly when there is an item (40_queue.md R104). -/
theorem queueGet_next {i : QueueId} {s t : State} (h : queueGet i s = .next t) :
    (s.queue i).canGet = true ∧
      t = (s.setQueue i ((s.queue i).pop (s.slots i))).reply (respond true (zext32 (s.queue i).head)) := by
  unfold queueGet at h
  split at h
  · next hc => exact ⟨hc, by simpa using h.symm⟩
  · cases h

/-! ## Modulator -/

/-- MD.ADD_SYMBOL queues the symbol or sets `MD.txOverflow` and records the event (43_modulator.md R176). -/
theorem mdAddSymbol_cases (b : Bool) (s : State) :
    (s.txq.canPut s.build.txqN = true ∧
      mdAddSymbol b s = (s.setTxq (s.txq.push s.build.txqN (symbolItem s.build b)), respond true 0)) ∨
    (s.txq.canPut s.build.txqN = false ∧
      mdAddSymbol b s = ((s.setMd { s.md with txOverflow := true }).event .txOverflow, respond false 0)) := by
  unfold mdAddSymbol
  cases h : s.txq.canPut s.build.txqN <;> simp

@[simp] theorem mdAddSymbols_nil (s : State) : mdAddSymbols [] s = (s, 0) := rfl

theorem mdAddSymbols_cons (b : Bool) (bs : List Bool) (s : State) :
    mdAddSymbols (b :: bs) s =
      ((mdAddSymbols bs (mdAddSymbol b s).1).1,
        (mdAddSymbol b s).2.v.toNat + (mdAddSymbols bs (mdAddSymbol b s).1).2) := rfl

/-- A run of MD.ADD_SYMBOL changes TXQ, `MD.txOverflow` and the trace, nothing else (43_modulator.md R176). -/
theorem mdAddSymbols_frame (bs : List Bool) (s : State) :
    (mdAddSymbols bs s).1 = { s with
      txq := (mdAddSymbols bs s).1.txq
      md := { s.md with txOverflow := (mdAddSymbols bs s).1.md.txOverflow }
      trace := (mdAddSymbols bs s).1.trace } := by
  induction bs generalizing s with
  | nil => rfl
  | cons b bs ih =>
    rw [mdAddSymbols_cons, ih]
    rcases mdAddSymbol_cases b s with ⟨-, h⟩ | ⟨-, h⟩ <;> rw [h] <;> rfl

/-- MD.GET_SAMPLE gives a sample of the symbol in progress, of the next symbol of TXQ, or none (43_modulator.md R179). -/
theorem mdGetSample_cases (s : State) :
    (s.md.active = true ∧ mdGetSample s = mdEmitSample s) ∨
    (s.md.active = false ∧ s.txq.canGet = true ∧
      mdGetSample s = mdEmitSample ((s.setTxq (s.txq.pop s.build.txqN)).setMd (s.md.load s.txq.head))) ∨
    (s.md.active = false ∧ s.txq.canGet = false ∧ mdGetSample s = (s, respond false 0)) := by
  unfold mdGetSample
  cases s.md.active <;> cases s.txq.canGet <;> simp

/-- MD.GET_SAMPLE changes the modulator and TXQ, nothing else. -/
theorem mdGetSample_frame (s : State) :
    (mdGetSample s).1 = { s with txq := (mdGetSample s).1.txq, md := (mdGetSample s).1.md } := by
  rcases mdGetSample_cases s with ⟨-, h⟩ | ⟨-, -, h⟩ | ⟨-, -, h⟩ <;> rw [h] <;> rfl

/-! ## Clock recovery -/

/-- CR.TRANSITION changes the tracker and the trace, nothing else (41_clock_recovery.md R123). -/
theorem crTransition_frame (t : BitVec 32) (s : State) :
    (crTransition t s).1 = { s with cr := (crTransition t s).1.cr, trace := (crTransition t s).1.trace } := rfl

/-- The first transition after CR.CLEAR primes (41_clock_recovery.md R123, step 1). -/
theorem CrRegs.transition_prime (n : Nat) (c : CrRegs) (t : BitVec 32) (h : c.lastValid = false) :
    c.transition n t = ({ c with lastValid := true, lastT := t }, {}) := by
  simp [CrRegs.transition, h]

/-- An accepted transition (41_clock_recovery.md R123, R124). -/
theorem CrRegs.transition_accept (n : Nat) (c : CrRegs) (t : BitVec 32) (hv : c.lastValid = true)
    (ht : c.inTol (t - c.lastT) = true) :
    c.transition n t =
      (({ c with lastT := t } : CrRegs).acceptTransition n t (t - c.lastT),
        { d := (({ c with lastT := t } : CrRegs).acceptTransition n t (t - c.lastT)).decides t
          acc := true
          rejected := false }) := by
  have h2 : ({ c with lastT := t } : CrRegs).inTol (t - c.lastT) = true := ht
  unfold CrRegs.transition
  rw [if_pos hv]
  dsimp only
  rw [h2]
  rfl

/-- A rejected transition changes only `CR.lastT` and is still decided (41_clock_recovery.md R124, R128). -/
theorem CrRegs.transition_reject (n : Nat) (c : CrRegs) (t : BitVec 32) (hv : c.lastValid = true)
    (ht : c.inTol (t - c.lastT) = false) :
    c.transition n t =
      ({ c with lastT := t }, { d := ({ c with lastT := t } : CrRegs).decides t, acc := false, rejected := true }) := by
  have h2 : ({ c with lastT := t } : CrRegs).inTol (t - c.lastT) = false := ht
  unfold CrRegs.transition
  rw [if_pos hv]
  dsimp only
  rw [h2]
  rfl

/-- A history never grows past its depth (41_clock_recovery.md R126). -/
theorem length_pushHist (n : Nat) (h : List Transition) (r : Transition) (hn : h.length ≤ n) :
    (pushHist n h r).length ≤ n := by
  unfold pushHist
  split <;> simp_all

/-! ## Demodulator -/

/-- `count()` changes `DM.cnt`, and on a wrap the tracker and the trace (42_demodulator.md R143). -/
theorem dmCount_frame (s : State) :
    dmCount s = { s with
      cr := (dmCount s).cr
      dm := { s.dm with cnt := nextCount s.build.cntBits s.dm.cnt }
      trace := (dmCount s).trace } := by
  unfold dmCount
  dsimp only
  by_cases h : nextCount s.build.cntBits s.dm.cnt = 0
  · rw [if_pos h]; rfl
  · rw [if_neg h]; rfl

/-- `onTransition()` changes the tracker, RXQ and the trace, nothing else (42_demodulator.md R150). -/
theorem dmOnTransition_frame (s : State) :
    (dmOnTransition s).1 = { s with
      cr := (dmOnTransition s).1.cr
      rxq := (dmOnTransition s).1.rxq
      trace := (dmOnTransition s).1.trace } := by
  unfold dmOnTransition
  dsimp only
  repeat' split
  all_goals rfl

/-- DM.PROCESS_SAMPLE changes the demodulator, the tracker, RXQ and the trace, nothing else (42_demodulator.md R142). -/
theorem dmProcess_frame (x : Int) (s : State) :
    (dmProcess x s).1 = { s with
      cr := (dmProcess x s).1.cr
      dm := (dmProcess x s).1.dm
      rxq := (dmProcess x s).1.rxq
      trace := (dmProcess x s).1.trace } := by
  unfold dmProcess
  dsimp only
  split
  · dsimp only
    rw [dmOnTransition_frame, dmCount_frame]
    rfl
  · dsimp only
    rw [dmCount_frame]
    rfl

/-! ## Frame codec -/

/-- The frame consumer keeps a pending message and drops the new frame, or takes the frame (46_facade.md R263). -/
theorem consume_cases (n : Nat) (s : State) :
    (s.fac.pendValid = true ∧ consume n s = (s.event .msgDropped, true)) ∨
    (s.fac.pendValid = false ∧
      consume n s =
        (s.setFac { s.fac with
          pend := Memory.copy s.fc.buf n s.fac.pend
          pendLen := n
          pendValid := true }, false)) := by
  unfold consume
  cases s.fac.pendValid <;> simp

/-- The receive parser changes its own registers, the pending message and the trace, nothing else
(45_frame_codec.md R217 to R222, 46_facade.md R263). -/
theorem fcBoundary_frame (s : State) :
    (fcBoundary s).1 = { s with
      fc := s.fc.endFrame
      fac := { s.fac with
        pendValid := (fcBoundary s).1.fac.pendValid
        pendLen := (fcBoundary s).1.fac.pendLen
        pend := (fcBoundary s).1.fac.pend }
      trace := (fcBoundary s).1.trace } := by
  unfold fcBoundary
  split
  · split
    · dsimp only
      rcases consume_cases (s.fc.pos - 2) (s.event .frameOk) with ⟨-, h⟩ | ⟨-, h⟩ <;> rw [h] <;> rfl
    · rfl
  · rfl

/-- `store(b)` changes `FC.buf`, `FC.pos`, `FC.rxCrc`, `FC.inEsc`, `FC.discard` and the trace (45_frame_codec.md R220). -/
theorem fcStore_frame (b : BitVec 8) (s : State) :
    (fcStore b s).1 = { s with
      fc := { s.fc with
        buf := (fcStore b s).1.fc.buf
        pos := (fcStore b s).1.fc.pos
        rxCrc := (fcStore b s).1.fc.rxCrc
        inEsc := (fcStore b s).1.fc.inEsc
        discard := (fcStore b s).1.fc.discard }
      trace := (fcStore b s).1.trace } := by
  unfold fcStore
  split <;> rfl

/-- FC.RX_BYTE changes the parser's frame registers, the pending message and the trace, nothing else. -/
theorem fcRxByte_frame (b : BitVec 8) (s : State) :
    (fcRxByte b s).1 = { s with
      fc := { s.fc with
        buf := (fcRxByte b s).1.fc.buf
        pos := (fcRxByte b s).1.fc.pos
        rxCrc := (fcRxByte b s).1.fc.rxCrc
        inEsc := (fcRxByte b s).1.fc.inEsc
        discard := (fcRxByte b s).1.fc.discard }
      fac := { s.fac with
        pendValid := (fcRxByte b s).1.fac.pendValid
        pendLen := (fcRxByte b s).1.fac.pendLen
        pend := (fcRxByte b s).1.fac.pend }
      trace := (fcRxByte b s).1.trace } := by
  unfold fcRxByte
  split
  · rw [fcBoundary_frame]; rfl
  · split
    · rfl
    · split
      · rfl
      · split
        · rw [fcStore_frame]; rfl
        · rw [fcStore_frame]

/-- FC.RX_BIT changes the receive parser, the pending message and the trace, nothing else; `FC.crcBE` and `FC.ones` are
no part of the receive parser (45_frame_codec.md R221). -/
theorem fcRxBit_frame (bit : Bool) (s : State) :
    (fcRxBit bit s).1 = { s with
      fc := { (fcRxBit bit s).1.fc with crcBE := s.fc.crcBE, ones := s.fc.ones }
      fac := { s.fac with
        pendValid := (fcRxBit bit s).1.fac.pendValid
        pendLen := (fcRxBit bit s).1.fac.pendLen
        pend := (fcRxBit bit s).1.fac.pend }
      trace := (fcRxBit bit s).1.trace } := by
  unfold fcRxBit
  dsimp only
  split
  · dsimp only
    rw [fcRxByte_frame]; rfl
  · split
    · rfl
    · split
      · dsimp only
        rw [fcRxByte_frame]; rfl
      · rfl

/-! ## Facade -/

/-- Draining RXQ changes RXQ, the receive parser, the pending message and the trace, nothing else (46_facade.md R255). -/
theorem facDrain_frame (k : Nat) (s : State) (f : DecFlags) :
    (facDrain k s f).1 = { s with
      rxq := (facDrain k s f).1.rxq
      fc := { (facDrain k s f).1.fc with crcBE := s.fc.crcBE, ones := s.fc.ones }
      fac := { s.fac with
        pendValid := (facDrain k s f).1.fac.pendValid
        pendLen := (facDrain k s f).1.fac.pendLen
        pend := (facDrain k s f).1.fac.pend }
      trace := (facDrain k s f).1.trace } := by
  induction k generalizing s f with
  | zero => rfl
  | succ k ih =>
    unfold facDrain
    split
    · dsimp only
      rw [ih, fcRxBit_frame]; rfl
    · rfl

/-! ## A step -/

/-- Everything a step can answer, by the reset input and the ports. -/
theorem step_cases (s : State) :
    (s.build.valid = false ∧ step s = .refused .buildOutsideSpec) ∨
    (s.build.valid = true ∧ s.resetIn = .betweenCommands ∧ step s = .next s.applyReset) ∨
    (s.build.valid = true ∧ s.resetIn = .duringCommand ∧ step s = .next s.abandon.applyReset) ∨
    (s.build.valid = true ∧ s.resetIn = .off ∧ s.nextPort = none ∧ step s = .next s) ∨
    (∃ p order, s.build.valid = true ∧ s.resetIn = .off ∧ s.nextPort = some (p, order) ∧
      step s = runCommand (s.accept p order)) := by
  unfold step
  cases hb : s.build.valid
  · simp
  · cases hr : s.resetIn
    · cases hn : s.nextPort with
      | none => simp
      | some po => obtain ⟨p, order⟩ := po; simp
    · simp
    · simp

/-- The command that runs is the decoded one, or the word is answered as illegal (30_encoding.md R86, R88). -/
theorem runCommand_cases (s : State) :
    (∃ i, decode s.cmdReg = .ok i ∧ runCommand s = exec i s) ∨
    (∃ e, decode s.cmdReg = .error e ∧ runCommand s = .next (s.reply respondIllegal)) := by
  unfold runCommand
  cases h : decode s.cmdReg with
  | ok i => exact .inl ⟨i, rfl, rfl⟩
  | error e => exact .inr ⟨e, rfl, rfl⟩

end Sys2Proof.Machine
end

