-- ==== Sys2Proof/Laws/PerInstr.lean ====
section
/-! SUPPORT. The family `EncodingLayout`: what the encoded word of a command looks like, per constructor. -/

namespace Sys2Proof.Laws

set_option Elab.async false

open Sys2Proof.Machine

/-- The layout that 30_encoding.md R80 and R84 give the word of a command: a unit below 8, the reserved field zero, and
`SEL` zero unless the command uses it. -/
def EncodingLayout.Statement (i : Instr) : Prop :=
  (cmdUnit (encode i)).toNat < 8 ∧ cmdRsv (encode i) = 0 ∧
    (usesSel (cmdUnit (encode i)).toNat (cmdOp (encode i)).toNat = false → cmdSel (encode i) = 0)

theorem EncodingLayout.facNop : EncodingLayout.Statement .facNop := by
  simp [EncodingLayout.Statement, encode, usesSel]
theorem EncodingLayout.facSetup : EncodingLayout.Statement .facSetup := by
  simp [EncodingLayout.Statement, encode, usesSel]
theorem EncodingLayout.facEncodeMessage : EncodingLayout.Statement .facEncodeMessage := by
  simp [EncodingLayout.Statement, encode, usesSel]
theorem EncodingLayout.facEncodeGetSample : EncodingLayout.Statement .facEncodeGetSample := by
  simp [EncodingLayout.Statement, encode, usesSel]
theorem EncodingLayout.facDecodeProcessSample (x : BitVec 32) : EncodingLayout.Statement (.facDecodeProcessSample x) := by
  simp [EncodingLayout.Statement, encode, usesSel]
theorem EncodingLayout.facDecodeGetMessage : EncodingLayout.Statement .facDecodeGetMessage := by
  simp [EncodingLayout.Statement, encode, usesSel]
theorem EncodingLayout.facDecodeClearMessage : EncodingLayout.Statement .facDecodeClearMessage := by
  simp [EncodingLayout.Statement, encode, usesSel]
theorem EncodingLayout.facTxbufClear : EncodingLayout.Statement .facTxbufClear := by
  simp [EncodingLayout.Statement, encode, usesSel]
theorem EncodingLayout.facTxbufPush (b : BitVec 8) : EncodingLayout.Statement (.facTxbufPush b) := by
  simp [EncodingLayout.Statement, encode, usesSel]
theorem EncodingLayout.facRxmsgRead (i : BitVec 32) : EncodingLayout.Statement (.facRxmsgRead i) := by
  simp [EncodingLayout.Statement, encode, usesSel]
theorem EncodingLayout.facCfgWrite (k : BitVec 8) (v : BitVec 32) : EncodingLayout.Statement (.facCfgWrite k v) := by
  simp [EncodingLayout.Statement, encode, usesSel]
theorem EncodingLayout.facCfgRead (k : BitVec 8) : EncodingLayout.Statement (.facCfgRead k) := by
  simp [EncodingLayout.Statement, encode, usesSel]
theorem EncodingLayout.mdSetup : EncodingLayout.Statement .mdSetup := by
  simp [EncodingLayout.Statement, encode, usesSel]
theorem EncodingLayout.mdClear : EncodingLayout.Statement .mdClear := by
  simp [EncodingLayout.Statement, encode, usesSel]
theorem EncodingLayout.mdSetPreamble (n : BitVec 16) : EncodingLayout.Statement (.mdSetPreamble n) := by
  simp [EncodingLayout.Statement, encode, usesSel]
theorem EncodingLayout.mdSetPostamble (n : BitVec 16) : EncodingLayout.Statement (.mdSetPostamble n) := by
  simp [EncodingLayout.Statement, encode, usesSel]
theorem EncodingLayout.mdAddPreamble : EncodingLayout.Statement .mdAddPreamble := by
  simp [EncodingLayout.Statement, encode, usesSel]
theorem EncodingLayout.mdAddPostamble : EncodingLayout.Statement .mdAddPostamble := by
  simp [EncodingLayout.Statement, encode, usesSel]
theorem EncodingLayout.mdAddSymbol (b : Bool) : EncodingLayout.Statement (.mdAddSymbol b) := by
  simp [EncodingLayout.Statement, encode, usesSel]
theorem EncodingLayout.mdGetSample : EncodingLayout.Statement .mdGetSample := by
  simp [EncodingLayout.Statement, encode, usesSel]
theorem EncodingLayout.dmSetup : EncodingLayout.Statement .dmSetup := by
  simp [EncodingLayout.Statement, encode, usesSel]
theorem EncodingLayout.dmClear : EncodingLayout.Statement .dmClear := by
  simp [EncodingLayout.Statement, encode, usesSel]
theorem EncodingLayout.dmProcessSample (x : BitVec 32) : EncodingLayout.Statement (.dmProcessSample x) := by
  simp [EncodingLayout.Statement, encode, usesSel]
theorem EncodingLayout.crSetup : EncodingLayout.Statement .crSetup := by
  simp [EncodingLayout.Statement, encode, usesSel]
theorem EncodingLayout.crClear : EncodingLayout.Statement .crClear := by
  simp [EncodingLayout.Statement, encode, usesSel]
theorem EncodingLayout.crTransition (t : BitVec 32) : EncodingLayout.Statement (.crTransition t) := by
  simp [EncodingLayout.Statement, encode, usesSel]
theorem EncodingLayout.fcSetup : EncodingLayout.Statement .fcSetup := by
  simp [EncodingLayout.Statement, encode, usesSel]
theorem EncodingLayout.fcClear : EncodingLayout.Statement .fcClear := by
  simp [EncodingLayout.Statement, encode, usesSel]
theorem EncodingLayout.fcSendFrameBytes : EncodingLayout.Statement .fcSendFrameBytes := by
  simp [EncodingLayout.Statement, encode, usesSel]
theorem EncodingLayout.fcSendFrameBits : EncodingLayout.Statement .fcSendFrameBits := by
  simp [EncodingLayout.Statement, encode, usesSel]
theorem EncodingLayout.fcRxByte (b : BitVec 8) : EncodingLayout.Statement (.fcRxByte b) := by
  simp [EncodingLayout.Statement, encode, usesSel]
theorem EncodingLayout.fcRxBit (bit : Bool) : EncodingLayout.Statement (.fcRxBit bit) := by
  simp [EncodingLayout.Statement, encode, usesSel]
theorem EncodingLayout.crcInit : EncodingLayout.Statement .crcInit := by
  simp [EncodingLayout.Statement, encode, usesSel]
theorem EncodingLayout.crcUpdate (b : BitVec 8) : EncodingLayout.Statement (.crcUpdate b) := by
  simp [EncodingLayout.Statement, encode, usesSel]
theorem EncodingLayout.crcRead : EncodingLayout.Statement .crcRead := by
  simp [EncodingLayout.Statement, encode, usesSel]
theorem EncodingLayout.crcTableRead (i : BitVec 8) : EncodingLayout.Statement (.crcTableRead i) := by
  simp [EncodingLayout.Statement, encode, usesSel]
theorem EncodingLayout.txqCanPut : EncodingLayout.Statement .txqCanPut := by
  simp [EncodingLayout.Statement, encode, usesSel]
theorem EncodingLayout.txqPut (item : BitVec 32) : EncodingLayout.Statement (.txqPut item) := by
  simp [EncodingLayout.Statement, encode, usesSel]
theorem EncodingLayout.txqCanGet : EncodingLayout.Statement .txqCanGet := by
  simp [EncodingLayout.Statement, encode, usesSel]
theorem EncodingLayout.txqGet : EncodingLayout.Statement .txqGet := by
  simp [EncodingLayout.Statement, encode, usesSel]
theorem EncodingLayout.txqClear : EncodingLayout.Statement .txqClear := by
  simp [EncodingLayout.Statement, encode, usesSel]
theorem EncodingLayout.txqCount : EncodingLayout.Statement .txqCount := by
  simp [EncodingLayout.Statement, encode, usesSel]
theorem EncodingLayout.txqNthFromPut (n : BitVec 32) : EncodingLayout.Statement (.txqNthFromPut n) := by
  simp [EncodingLayout.Statement, encode, usesSel]
theorem EncodingLayout.txqNthFromGet (n : BitVec 32) : EncodingLayout.Statement (.txqNthFromGet n) := by
  simp [EncodingLayout.Statement, encode, usesSel]
theorem EncodingLayout.rxqCanPut : EncodingLayout.Statement .rxqCanPut := by
  simp [EncodingLayout.Statement, encode, usesSel]
theorem EncodingLayout.rxqPut (item : BitVec 32) : EncodingLayout.Statement (.rxqPut item) := by
  simp [EncodingLayout.Statement, encode, usesSel]
theorem EncodingLayout.rxqCanGet : EncodingLayout.Statement .rxqCanGet := by
  simp [EncodingLayout.Statement, encode, usesSel]
theorem EncodingLayout.rxqGet : EncodingLayout.Statement .rxqGet := by
  simp [EncodingLayout.Statement, encode, usesSel]
theorem EncodingLayout.rxqClear : EncodingLayout.Statement .rxqClear := by
  simp [EncodingLayout.Statement, encode, usesSel]
theorem EncodingLayout.rxqCount : EncodingLayout.Statement .rxqCount := by
  simp [EncodingLayout.Statement, encode, usesSel]
theorem EncodingLayout.rxqNthFromPut (n : BitVec 32) : EncodingLayout.Statement (.rxqNthFromPut n) := by
  simp [EncodingLayout.Statement, encode, usesSel]
theorem EncodingLayout.rxqNthFromGet (n : BitVec 32) : EncodingLayout.Statement (.rxqNthFromGet n) := by
  simp [EncodingLayout.Statement, encode, usesSel]

end Sys2Proof.Laws
end

