-- ==== Sys2Proof/Laws/Sine.lean ====
section
/-! SUPPORT. What the exact comparison with a cosine, the exact comparison with a sine and the bitwise search answer, in terms
of the real functions of 43_modulator.md R170. -/

namespace Sys2Proof.Machine

set_option Elab.async false

/-- The cosine of `π * m / 2^(n+1)` has the sign of the half-plane that `m` taken modulo a full turn lies in. -/
theorem cos_sign (n m : Nat) :
    (m % 2 ^ (n + 2) ≤ 2 ^ n ∨ 3 * 2 ^ n ≤ m % 2 ^ (n + 2) → 0 ≤ Real.cos (Real.pi * m / 2 ^ (n + 1))) ∧
    (¬ (m % 2 ^ (n + 2) ≤ 2 ^ n ∨ 3 * 2 ^ n ≤ m % 2 ^ (n + 2)) → Real.cos (Real.pi * m / 2 ^ (n + 1)) < 0) := by
  have hpi := Real.pi_pos
  have h2 : (0 : ℝ) < 2 ^ n := by positivity
  obtain ⟨k, hk⟩ : ∃ k, k = m % 2 ^ (n + 2) := ⟨_, rfl⟩
  have hlt : k < 2 ^ (n + 2) := by rw [hk]; exact Nat.mod_lt _ (by positivity)
  have hm : (m : ℝ) = k + (m / 2 ^ (n + 2) : ℕ) * 2 ^ (n + 2) := by
    rw [hk]; exact_mod_cast (Nat.mod_add_div' m (2 ^ (n + 2))).symm
  have hcos : Real.cos (Real.pi * m / 2 ^ (n + 1)) = Real.cos (Real.pi * k / 2 ^ (n + 1)) := by
    rw [hm, ← Real.cos_add_nat_mul_two_pi (Real.pi * k / 2 ^ (n + 1)) (m / 2 ^ (n + 2))]
    congr 1
    field_simp
    ring
  have hang : Real.pi * k / 2 ^ (n + 1) = Real.pi / 2 * (k / 2 ^ n) := by rw [pow_succ]; field_simp
  rw [← hk, hcos, hang]
  have hpow : (2 : ℕ) ^ (n + 2) = 4 * 2 ^ n := by ring
  refine ⟨fun h => ?_, fun h => ?_⟩
  · rcases h with h | h
    · have h' : (k : ℝ) / 2 ^ n ≤ 1 := by rw [div_le_one h2]; exact_mod_cast h
      have h0 : 0 ≤ (k : ℝ) / 2 ^ n := by positivity
      exact Real.cos_nonneg_of_mem_Icc ⟨by nlinarith, by nlinarith⟩
    · have h' : 3 ≤ (k : ℝ) / 2 ^ n := by rw [le_div_iff₀ h2]; exact_mod_cast h
      have h4 : (k : ℝ) / 2 ^ n ≤ 4 := by rw [div_le_iff₀ h2]; exact_mod_cast (by omega : k ≤ 4 * 2 ^ n)
      rw [← Real.cos_sub_two_pi]
      exact Real.cos_nonneg_of_mem_Icc ⟨by nlinarith, by nlinarith⟩
  · have h1 : 1 < (k : ℝ) / 2 ^ n := by rw [lt_div_iff₀ h2]; exact_mod_cast (by omega : 1 * 2 ^ n < k)
    have h3 : (k : ℝ) / 2 ^ n < 3 := by rw [div_lt_iff₀ h2]; exact_mod_cast (by omega : k < 3 * 2 ^ n)
    exact Real.cos_neg_of_pi_div_two_lt_of_lt (by nlinarith) (by nlinarith)

/-- `compareCos n m a b` is how the cosine of `π * m / 2^n` compares with `a / b`. -/
theorem compareCos_spec (n m : Nat) (a b : Int) (hb : 0 < b) :
    (compareCos n m a b = .lt ↔ Real.cos (Real.pi * m / 2 ^ n) * b < a) ∧
    (compareCos n m a b = .gt ↔ (a : ℝ) < Real.cos (Real.pi * m / 2 ^ n) * b) := by
  induction n generalizing a b with
  | zero =>
    rcases Nat.even_or_odd' m with ⟨c, hc | hc⟩
    · have h : Real.cos (Real.pi * m / 2 ^ 0) = 1 := by
        rw [hc, ← Real.cos_nat_mul_two_pi c]; push_cast; ring_nf
      have h2 : m % 2 = 0 := by omega
      simp only [compareCos, h2, if_true, h, one_mul, compare_lt_iff_lt, compare_gt_iff_gt, Int.cast_lt, and_self]
    · have h : Real.cos (Real.pi * m / 2 ^ 0) = -1 := by
        rw [hc, ← Real.cos_nat_mul_two_pi_add_pi c]; push_cast; ring_nf
      have h2 : ¬ m % 2 = 0 := by omega
      simp only [compareCos, h2, if_false, h, compare_lt_iff_lt, compare_gt_iff_gt]
      rw [← Int.cast_lt (R := ℝ), ← Int.cast_lt (R := ℝ)]
      push_cast
      simp
  | succ n ih =>
    have hb' : (0 : ℝ) < b := by exact_mod_cast hb
    have ih' := ih (2 * a * a - b * b) (b * b) (by positivity)
    have hdbl : Real.cos (Real.pi * m / 2 ^ n) = 2 * Real.cos (Real.pi * m / 2 ^ (n + 1)) ^ 2 - 1 := by
      rw [← Real.cos_two_mul]; congr 1; rw [pow_succ]; field_simp
    rw [hdbl] at ih'
    push_cast at ih'
    obtain ⟨hpos, hneg⟩ := cos_sign n m
    generalize Real.cos (Real.pi * m / 2 ^ (n + 1)) = c at *
    unfold compareCos
    dsimp only
    split
    · next hs =>
      have hc := hpos hs
      have hcb : 0 ≤ c * b := by positivity
      split
      · next ha =>
        have ha' : (a : ℝ) < 0 := by exact_mod_cast ha
        simp; constructor <;> linarith
      · next ha =>
        have ha' : (0 : ℝ) ≤ a := by exact_mod_cast not_lt.1 ha
        rw [ih'.1, ih'.2]
        constructor <;> constructor <;> intro h <;> nlinarith [mul_pos hb' hb']
    · next hs =>
      have hc := hneg hs
      have hcb : c * b < 0 := mul_neg_of_neg_of_pos hc hb'
      split
      · next ha =>
        have ha' : (0 : ℝ) ≤ a := by exact_mod_cast ha
        simp; constructor <;> linarith
      · next ha =>
        have ha' : (a : ℝ) < 0 := by exact_mod_cast not_le.1 ha
        rw [Ordering.swap_eq_lt, Ordering.swap_eq_gt, ih'.1, ih'.2]
        constructor <;> constructor <;> intro h <;> nlinarith [mul_pos hb' hb']

/-- `sineAtLeast` compares with the sine at the centre of a step (43_modulator.md R170). -/
theorem sineAtLeast_iff {qtab i : Nat} (hi : i < 2 ^ qtab) (a b : Int) (hb : 0 < b) :
    sineAtLeast qtab i a b = true ↔ (a : ℝ) ≤ Real.sin (Real.pi / 2 * ((i + 1 / 2) / 2 ^ qtab)) * b := by
  have h := (compareCos_spec (qtab + 2) (2 ^ (qtab + 1) - (2 * i + 1)) a b hb).1
  have hp : (2 : ℕ) ^ (qtab + 1) = 2 * 2 ^ qtab := by ring
  have hc : Real.cos (Real.pi * (2 ^ (qtab + 1) - (2 * i + 1) : ℕ) / 2 ^ (qtab + 2)) =
      Real.sin (Real.pi / 2 * ((i + 1 / 2) / 2 ^ qtab)) := by
    rw [← Real.cos_pi_div_two_sub, Nat.cast_sub (by omega)]
    congr 1
    push_cast
    rw [pow_add, pow_add]
    field_simp
  rw [hc] at h
  rw [sineAtLeast, decide_eq_true_eq, ne_eq, h, not_lt]

/-- The bitwise search finds the last number that satisfies `p` (43_modulator.md R170's `floor`). -/
theorem largest_spec (p : Nat → Bool) (hp : ∀ x y, x ≤ y → p y = true → p x = true) (j acc : Nat) (h : p acc = true) :
    p (largest p j acc) = true ∧ acc ≤ largest p j acc ∧ largest p j acc < acc + 2 ^ j ∧
      ∀ k, largest p j acc < k → k < acc + 2 ^ j → p k = false := by
  induction j generalizing acc with
  | zero => simp [largest, h]; intro k h1 h2; omega
  | succ j ih =>
    have h2 : (2 : ℕ) ^ (j + 1) = 2 ^ j + 2 ^ j := by ring
    unfold largest
    cases hq : p (acc + 2 ^ j) with
    | true =>
      simp only [if_true]
      obtain ⟨h3, h4, h5, h6⟩ := ih (acc + 2 ^ j) hq
      exact ⟨h3, by omega, by omega, fun k hk1 hk2 => h6 k hk1 (by omega)⟩
    | false =>
      simp only [Bool.false_eq_true, if_false]
      obtain ⟨h3, h4, h5, h6⟩ := ih acc h
      refine ⟨h3, h4, by omega, fun k hk1 hk2 => ?_⟩
      by_cases hk : k < acc + 2 ^ j
      · exact h6 k hk1 hk
      · by_contra hne
        rw [Bool.not_eq_false] at hne
        rw [hp _ k (by omega) hne] at hq
        cases hq

end Sys2Proof.Machine
end

