-- ==== Sys2Proof/Tests/Slice0.lean ====
section
/-! SUPPORT. The model's own tests: the WellFormed smoke tests, every command's decoding from a word written out from the
spec's tables, single steps with the results the spec gives, and for each statement with hypotheses a concrete state that
meets them. -/

namespace Sys2Proof.Tests

set_option Elab.async false

open Sys2Proof Sys2Proof.Machine

/-- The next state, if there is one. -/
def after (o : Host.Outcome State Fault Refusal) : Option State :=
  match o with
  | .next t => some t
  | _ => none

/-- The last response on the tick port, as a number. -/
def lastResponse (o : Host.Outcome State Fault Refusal) : Option Nat := (after o).map fun t => (t.portT.responses.getLastD 0).toNat

/-- A field of the next state. -/
def field {α : Type} (f : State → α) (o : Host.Outcome State Fault Refusal) : Option α := (after o).map f

/-- The fault, if there is one. -/
def faultOf (o : Host.Outcome State Fault Refusal) : Option Fault :=
  match o with
  | .fault f => some f
  | _ => none

/-- A small build, so that the ends of every range are near. -/
def tinyBuild : Build :=
  { txqN := 4, rxqN := 3, histN := 2, majW := 2, maxFrameLen := 4, txbufLen := 2, pendLen := 2, cntBits := 2 }

/-- Its reset state. -/
def tiny : State := State.resetOf tinyBuild

/-! ## WellFormed: a CFG index out of range is ill-formed, and every other command is well-formed -/

theorem test_wellFormed_cfgWrite_8 : (Instr.facCfgWrite 8 0).wellFormed = true := by decide
theorem test_wellFormed_refuses_cfgWrite_9 : (Instr.facCfgWrite 9 0).wellFormed = false := by decide
theorem test_wellFormed_cfgRead_9 : (Instr.facCfgRead 9).wellFormed = true := by decide
theorem test_wellFormed_refuses_cfgRead_10 : (Instr.facCfgRead 10).wellFormed = false := by decide
theorem test_wellFormed_refuses_cfgRead_255 : (Instr.facCfgRead 255).wellFormed = false := by decide

/-! ## Decoding: words written out from 30_encoding.md R80, R83, R85 (UNIT, OP, SEL, zeros, DATA) -/

theorem test_decode_fac :
    decode 0x0000000000000000 = .ok .facNop ∧ decode 0x0100000000000000 = .ok .facSetup ∧
    decode 0x0200000000000000 = .ok .facEncodeMessage ∧ decode 0x0300000000000000 = .ok .facEncodeGetSample ∧
    decode 0x04000000FFFFFE6E = .ok (.facDecodeProcessSample 0xFFFFFE6E) ∧
    decode 0x0500000000000000 = .ok .facDecodeGetMessage ∧ decode 0x0600000000000000 = .ok .facDecodeClearMessage ∧
    decode 0x0700000000000000 = .ok .facTxbufClear ∧ decode 0x0800000000000148 = .ok (.facTxbufPush 0x48) ∧
    decode 0x0900000012345678 = .ok (.facRxmsgRead 0x12345678) ∧
    decode 0x0A05000000000014 = .ok (.facCfgWrite 5 20) ∧ decode 0x0B09000000000000 = .ok (.facCfgRead 9) := by decide

theorem test_decode_md :
    decode 0x1000000000000000 = .ok .mdSetup ∧ decode 0x1100000000000000 = .ok .mdClear ∧
    decode 0x1200000000010008 = .ok (.mdSetPreamble 8) ∧ decode 0x1300000000000002 = .ok (.mdSetPostamble 2) ∧
    decode 0x1400000000000000 = .ok .mdAddPreamble ∧ decode 0x1500000000000000 = .ok .mdAddPostamble ∧
    decode 0x1600000000000001 = .ok (.mdAddSymbol true) ∧ decode 0x1700000000000000 = .ok .mdGetSample := by decide

theorem test_decode_dm_cr :
    decode 0x2000000000000000 = .ok .dmSetup ∧ decode 0x2100000000000000 = .ok .dmClear ∧
    decode 0x2200000000014000 = .ok (.dmProcessSample 0x14000) ∧
    decode 0x3000000000000000 = .ok .crSetup ∧ decode 0x3100000000000000 = .ok .crClear ∧
    decode 0x32000000000000B4 = .ok (.crTransition 180) := by decide

theorem test_decode_fc_crc :
    decode 0x4000000000000000 = .ok .fcSetup ∧ decode 0x4100000000000000 = .ok .fcClear ∧
    decode 0x4200000000000000 = .ok .fcSendFrameBytes ∧ decode 0x4300000000000000 = .ok .fcSendFrameBits ∧
    decode 0x440000000000017E = .ok (.fcRxByte 0x7E) ∧ decode 0x4500000000000003 = .ok (.fcRxBit true) ∧
    decode 0x5000000000000000 = .ok .crcInit ∧ decode 0x5100000000000041 = .ok (.crcUpdate 0x41) ∧
    decode 0x5200000000000000 = .ok .crcRead ∧ decode 0x5300000000000101 = .ok (.crcTableRead 1) := by decide

theorem test_decode_txq :
    decode 0x6000000000000000 = .ok .txqCanPut ∧ decode 0x6100000000000003 = .ok (.txqPut 3) ∧
    decode 0x6200000000000000 = .ok .txqCanGet ∧ decode 0x6300000000000000 = .ok .txqGet ∧
    decode 0x6400000000000000 = .ok .txqClear ∧ decode 0x6500000000000000 = .ok .txqCount ∧
    decode 0x6600000000000002 = .ok (.txqNthFromPut 2) ∧
    decode 0x67000000FFFFFFFF = .ok (.txqNthFromGet 0xFFFFFFFF) := by decide

theorem test_decode_rxq :
    decode 0x7000000000000000 = .ok .rxqCanPut ∧ decode 0x7100000000000002 = .ok (.rxqPut 2) ∧
    decode 0x7200000000000000 = .ok .rxqCanGet ∧ decode 0x7300000000000000 = .ok .rxqGet ∧
    decode 0x7400000000000000 = .ok .rxqClear ∧ decode 0x7500000000000000 = .ok .rxqCount ∧
    decode 0x7600000000000001 = .ok (.rxqNthFromPut 1) ∧ decode 0x7700000000000000 = .ok (.rxqNthFromGet 0) := by decide

/-- 95_test_vectors.md section 9: illegal words, each refused by name. -/
theorem test_decode_refuses_illegal_words :
    decode 0x8000000000000000 = .error .reservedUnit ∧ decode 0xF000000000000000 = .error .reservedUnit ∧
    decode 0x0C00000000000000 = .error .reservedOp ∧ decode 0x2300000000000000 = .error .reservedOp ∧
    decode 0x0000000100000000 = .error .reservedBits ∧ decode 0x0A05800000000000 = .error .reservedBits ∧
    decode 0x0001000000000000 = .error .selNotZero ∧ decode 0x6180000000000001 = .error .selNotZero := by decide

/-- The first word of the table's numbering is bit 0 up (spec/opcode_table.json). -/
theorem test_decodeTableWord : decodeTableWord 64 0x6100000000000001 = some (.txqPut 1) := by decide

/-! ## Command text (30_encoding.md R89, R90) -/

/-- The words of a line. -/
def wordsOf (line : String) : Option (List Nat) :=
  match assembleLine line with
  | .ok ws => some (ws.map BitVec.toNat)
  | .error _ => none

theorem test_assemble_sel_and_data : wordsOf "FAC.CFG_WRITE 5, 20" = some [0x0A05000000000014] := by decide
theorem test_assemble_negative_sample :
    wordsOf "loop: FAC.DECODE_PROCESS_SAMPLE -402 ; x" = some [0x04000000FFFFFE6E] := by decide
theorem test_assemble_send : wordsOf "SEND \"Hi\"" =
    some [0x0700000000000000, 0x0800000000000048, 0x0800000000000069, 0x0200000000000000] := by decide
theorem test_assemble_rejects_out_of_range : wordsOf "TXQ.PUT 2" = none := by decide

/-! ## Single commands, with the results the rules' examples and 95_test_vectors.md give -/

/-- 44_crc16.md R203's example. -/
theorem test_crc_update_example : lastResponse (exec (.crcUpdate 0x41) State.reset) = some 0x800000000000B915 := by decide
/-- 44_crc16.md R205's example. -/
theorem test_crc_table_read_example : lastResponse (exec (.crcTableRead 1) State.reset) = some 0x8000000000001021 := by
  decide
/-- 10_state.md R21: CFG7 after reset. -/
theorem test_cfg_read_7 : lastResponse (exec (.facCfgRead 7) State.reset) = some 0x8000000000006E5A := by decide
/-- 10_state.md R22: reserved bits are not stored. -/
theorem test_cfg_write_masks : field (fun t => t.cfg.mode) (exec (.facCfgWrite 4 0xFFFFFFFD) State.reset) = some 1 := by
  decide
/-- 10_state.md R22: STATUS is read-only. -/
theorem test_cfg_write_status_is_illegal :
    lastResponse (exec (.facCfgWrite 9 1) State.reset) = some 0x4000000000000000 := by decide
/-- 40_queue.md R102: the cursor wraps from `N - 1` to 0. -/
theorem test_put_wraps :
    field (fun t => (t.txq.put, t.txq.items 4)) (exec (.txqPut 1) { tiny with txq := ⟨3, 2, [(2, 1)]⟩ }) =
      some (0, [1, 1]) := by decide
/-- 40_queue.md R106's example: `N = 4`, `put = 0`, `get = 1` gives 3. -/
theorem test_count_is_non_negative :
    lastResponse (exec .txqCount { tiny with txq := ⟨0, 1, []⟩ }) = some 0x8000000000000003 := by decide
/-- 40_queue.md R107's example: items 1, 0, 1 put into an empty queue; the newest stands in slot 2. -/
theorem test_nth_from_put :
    lastResponse (exec (.txqNthFromPut 0) { tiny with txq := ⟨3, 0, [(0, 1), (2, 1)]⟩ }) =
      some 0x8000000000000002 := by decide
/-- 40_queue.md R108's example: `N = 4`, `put = 0`, `get = 1`, NTH_FROM_GET 2 gives 3. -/
theorem test_nth_from_get :
    lastResponse (exec (.txqNthFromGet 2) { tiny with txq := ⟨0, 1, []⟩ }) = some 0x8000000000000003 := by decide
/-- 60_exceptions.md R303: the fault names the command word and the port. -/
theorem test_put_full_faults :
    faultOf (step ({ tiny with txq := ⟨3, 0, []⟩ }.withFetchWord 64 0x6100000000000001)) =
      some (.queuePutFull 0x6100000000000001 .tick) := by decide
/-- 43_modulator.md R172's example. -/
theorem test_md_setup_example :
    field (fun t => (t.md.sps, t.md.half, t.md.inc0, t.md.inc1))
      (exec .mdSetup { State.reset with cfg := ⟨9600, 1200, 1200, 2200, 3, 20, 5, 0, 0⟩ }) =
      some (8, 4, 0x20000000, 0x3AAAAAAA) := by decide
/-- 43_modulator.md R179's example, first sample: 402, and the phase moves on by tone 1's increment. -/
theorem test_get_sample_first :
    field (fun t => ((t.portT.responses.getLastD 0).toNat, t.md.phase, t.md.symPos))
      (exec .mdGetSample { State.reset with txq := ⟨1, 0, [(0, 1)]⟩ }) =
      some (0x8000000000000192, 0x40000000, 1) := by decide +kernel
/-- 43_modulator.md R179's example, third sample: -402, sign-extended. -/
theorem test_get_sample_negative :
    lastResponse (exec .mdGetSample { State.reset with
      md := { State.reset.md with active := true, symPos := 2, curBit := true, curInc := 0x40000000, phase := 0x80000000 } }) =
      some 0x80000000FFFFFE6E := by decide +kernel
/-- 43_modulator.md R180: a symbol 1 switches to tone 0 at its half. -/
theorem test_manchester_switch :
    field (fun t => t.md.curInc) (exec .mdGetSample { State.reset with
      md := { State.reset.md with active := true, symPos := 40, curBit := true, curInc := 0x40000000 } }) =
      some 0x20000000 := by decide
/-- 42_demodulator.md R142's example. -/
theorem test_process_sample_example :
    field (fun t => (t.dm.y1, t.dm.env, t.dm.hi, t.dm.lo, t.dm.win)) (exec (.dmProcessSample 16384) State.reset) =
      some (4645, 580, 145, 1, [false, false, true]) := by decide
/-- 41_clock_recovery.md R123's example: seeds edge 60 and answers 3. -/
theorem test_transition_example :
    field (fun t => (t.cr.edge, (t.portT.responses.getLastD 0).toNat))
      (exec (.crTransition 180) { State.reset with cr := { State.reset.cr with lastValid := true, lastT := 100 } }) =
      some (some 60, 0x8000000000000003) := by decide
/-- 42_demodulator.md R143: a wrap to 0 clears the tracker and records CR_WRAP. -/
theorem test_counter_wrap :
    field (fun t => (t.dm.cnt, t.cr.edge, t.trace))
      (exec (.dmProcessSample 0) { tiny with dm := { tiny.dm with cnt := 3 }, cr := { tiny.cr with edge := some 7 } }) =
      some (0, none, [.crWrap]) := by decide
/-- 45_frame_codec.md R215's example: `7E 41 B9 15 7E`. -/
theorem test_send_frame_bytes_example :
    field (fun t => t.byteOut) (exec .fcSendFrameBytes
      { State.reset with fac := { State.reset.fac with txbuf := [(0, 0x41)], txLen := 1 } }) =
      some [0x7E, 0x41, 0xB9, 0x15, 0x7E] := by decide
/-- 45_frame_codec.md R216's example: its 40 symbols. -/
theorem test_send_frame_bits_example :
    (frameBits 0x1021 true [0x41]).map Bool.toNat =
      [0,1,1,1,1,1,1,0,1,0,0,0,0,0,1,0,1,0,0,1,1,1,0,1,1,0,1,0,1,0,0,0,0,1,1,1,1,1,1,0] := by decide +kernel
/-- 45_frame_codec.md R217's example, last octet: the payload `41` is delivered. -/
theorem test_rx_byte_delivers :
    field (fun t => (t.fac.pendValid, t.fac.pendLen, t.fac.pend, t.trace)) (exec (.fcRxByte 0x7E)
      { tiny with fc := { tiny.fc with buf := [(0, 0x41), (1, 0xB9), (2, 0x15)], pos := 3, rxCrc := 0xB915 } }) =
      some (true, 1, [(0, 0x41)], [.frameOk]) := by decide
/-- 45_frame_codec.md R220: the byte past `MAX_FRAME_LEN` discards the frame. -/
theorem test_rx_byte_oversize :
    field (fun t => (t.fc.pos, t.fc.discard, t.trace)) (exec (.fcRxByte 0x11) { tiny with fc := { tiny.fc with pos := 4 } }) =
      some (0, true, [.oversize]) := by decide
/-- 45_frame_codec.md R221: a zero after five ones is dropped, the flag's last zero is a boundary. -/
theorem test_rx_bit_destuffs :
    lastResponse (exec (.fcRxBit false) { tiny with fc := { tiny.fc with sr := 0xF8 } }) = some 0x8000000000000040 ∧
    lastResponse (exec (.fcRxBit false) { tiny with fc := { tiny.fc with sr := 0xFC } }) = some 0x8000000000000020 := by
  decide
/-- 46_facade.md R260's example: a byte of the pending message. -/
theorem test_rxmsg_read_example :
    lastResponse (exec (.facRxmsgRead 1)
      { tiny with fac := { tiny.fac with pendValid := true, pendLen := 2, pend := [(0, 0x48), (1, 0x69)] } }) =
      some 0x8000000000000069 := by decide
/-- 46_facade.md R256: an empty message is a message. -/
theorem test_empty_message_is_pending :
    lastResponse (exec .facDecodeGetMessage { tiny with fac := { tiny.fac with pendValid := true } }) =
      some 0x8000000000000000 := by decide
/-- 46_facade.md R253 with a TXQ too small for the frame: `V = 0`, and the sticky overflow bit. -/
theorem test_encode_message_overflows :
    field (fun t => ((t.portT.responses.getLastD 0).toNat, t.md.txOverflow, t.txq.items 4)) (exec .facEncodeMessage tiny) =
      some (0, true, [1, 0, 1]) := by decide +kernel
/-- 46_facade.md R252: an invalid CFG changes `FAC.cfgErr` alone. -/
theorem test_setup_invalid :
    after (exec .facSetup { tiny with cfg := { tiny.cfg with symbolRate := 0 } }) =
      some (({ tiny with
        cfg := { tiny.cfg with symbolRate := 0 }
        fac := { tiny.fac with cfgErr := true } } : State).reply (respond false 0)) := by decide
/-- 20_memory.md R69: of two pending commands the one `portOrder` names goes first. -/
theorem test_port_order :
    field (fun t => (t.portT.responses, t.portA.responses)) (step { tiny with
      portT := ⟨[0], []⟩, portA := ⟨[0], []⟩, portOrder := [.app] }) = some ([], [0x8000000000000000]) := by decide
/-- 70_reset_and_hazards.md R331: the abandoned command leaves its port without a response. -/
theorem test_reset_during_command :
    field (fun t => (t.portT, t.cfg)) (step { tiny with
      portT := ⟨[0x1200000000000008, 0], []⟩, resetIn := .duringCommand, cfg := { tiny.cfg with mode := 0 } }) =
      some (⟨[0], []⟩, CfgRegs.reset) := by decide
/-- 00_scope.md R9: a build outside the constraints is refused. -/
theorem test_invalid_build_is_refused :
    ({ tinyBuild with txqN := 1 } : Build).valid = false ∧ tinyBuild.valid = true ∧ ({} : Build).valid = true := by decide

/-- 00_scope.md R9 constrains neither `CNT_BITS` nor `Q_ITEM_BITS`, and `SINE_AMPL` by `SAMPLE_BITS`. -/
theorem test_build_constraints :
    ({ cntBits := 0, qItemBits := 0 } : Build).valid = true ∧ ({ cntBits := 40, qItemBits := 9 } : Build).valid = true ∧
    ({ qtabBits := 31 } : Build).valid = false ∧ ({ qtabBits := 30 } : Build).valid = true ∧
    ({ sineAmpl := 32768 } : Build).valid = false ∧ ({ sineAmpl := 0 } : Build).valid = false := by decide
/-- 40_queue.md R102: with `Q_ITEM_BITS = 2` the item is `DATA[1:0]`; by default it is `DATA[0]`. -/
theorem test_put_takes_the_item_field :
    field (fun t => t.txq.items 4) (exec (.txqPut 7) { tiny with build := { tinyBuild with qItemBits := 2 } }) = some [3] ∧
    field (fun t => t.txq.items 4) (exec (.txqPut 7) tiny) = some [1] := by decide
/-- 20_memory.md R64: `sext_16(DATA[15:0])`, and a 12-bit sample. -/
theorem test_sample_operand :
    operandSample {} 0x0001FE6E = -402 ∧ operandSample { sampleBits := 12 } 0xFFFFF800 = -2048 := by decide
/-- 43_modulator.md R170's formula by hand: `127 sin(pi/8) + 0.5 = 49.1`, `127 sin(3 pi/8) + 0.5 = 117.8`. -/
theorem test_sine_of_another_build :
    sineQ { qtabBits := 1, sineAmpl := 127 } 0 = 49 ∧ sineQ { qtabBits := 1, sineAmpl := 127 } 1 = 117 := by decide +kernel

/-! ## Witnesses: states and operands that meet the hypotheses of the statements, at the ends of their ranges -/

/-- A state in the middle of everything: both queues part full, a symbol being sent, a tracker with an edge, bytes
buffered, a message pending. -/
def busy : State :=
  { tiny with
    txq := ⟨1, 3, [(3, 1)]⟩
    rxq := ⟨1, 0, [(0, 1)]⟩
    cr := { tiny.cr with edge := some 60, lastValid := true, lastT := 180, hist := [⟨180, 80⟩] }
    dm := { tiny.dm with cnt := 3, env := 9, hi := 12, lo := 1, win := [false, true] }
    md := { tiny.md with active := true, symPos := 79, curBit := true, curInc := 0x40000000 }
    fc := { tiny.fc with buf := [(0, 0x41), (1, 0xB9), (2, 0x15)], pos := 3, rxCrc := 0xB915, nbits := 7 }
    fac := { tiny.fac with txbuf := [(0, 0x7E)], txLen := 1, pendValid := true, pendLen := 1, pend := [(0, 0x41)] }
    portT := ⟨[0x6100000000000001], []⟩ }

/-- The staged state `busy` with no message pending. -/
def free : State := { busy with fac := { busy.fac with pendValid := false, pendLen := 0 } }

theorem busy_txq : QueueInv 4 busy.txq := ⟨by decide, by decide, by decide, by decide⟩
theorem busy_rxq : QueueInv 3 busy.rxq := ⟨by decide, by decide, by decide, by decide⟩

theorem busy_cr : CrInv tinyBuild busy.cr :=
  ⟨by decide, fun e h => by obtain rfl : 60 = e := by simpa [busy] using h
                            decide, by decide, fun h => by simp [busy] at h⟩

theorem busy_dm : DmInv tinyBuild busy.dm :=
  ⟨by decide, by decide, by decide, by decide, by decide, by decide, by decide, by decide⟩

theorem busy_md : MdInv tinyBuild busy.md := ⟨by decide, by decide, by decide, by decide, by decide⟩

/-- The invariant of a state that is not the reset state (EveryStepKeepsTheInvariant, StaleMemoryIsNeverObservable). -/
theorem test_witness_invariant : Invariant busy ∧ (after (step busy)).isSome = true :=
  ⟨⟨by decide, ⟨by decide, by decide, by decide, by decide, by decide⟩, busy_txq, busy_rxq,
    by decide, by decide, busy_cr, busy_dm, busy_md,
    ⟨by decide, by decide, by decide, by decide, by decide, by decide⟩,
    ⟨by decide, by decide, by decide, by decide, by decide, by decide, by decide⟩⟩, by decide⟩

theorem test_witness_DecodingIgnoresUnreadData :
    decode 0x6100000000000003 = .ok (.txqPut 3) ∧
    (0xFFFFFFFF : Data) &&& readMask busy.build (.txqPut 3) = cmdData 0x6100000000000003 &&& readMask busy.build (.txqPut 3) ∧
    decode 0x1200000000000003 = .ok (.mdSetPreamble 3) ∧
    (0xFFFF0003 : Data) &&& dataMask (.mdSetPreamble 3) = cmdData 0x1200000000000003 &&& dataMask (.mdSetPreamble 3) := by
  decide

/-- Legal and illegal words next to each other: the last unit, operation and index of R83 and R22, and the first beyond. -/
theorem test_witness_IllegalWordsAnswerIll :
    illegalWord 0x7700000000000000 = false ∧ illegalWord 0x8000000000000000 = true ∧
    illegalWord 0x0B09000000000000 = false ∧ illegalWord 0x0C00000000000000 = true ∧
    illegalWord 0x0A08000000000000 = false ∧ illegalWord 0x0A09000000000000 = true ∧
    illegalWord 0x0B0A000000000000 = true ∧ illegalWord 0x0001000000000000 = true ∧
    illegalWord 0x0000000100000000 = true := by decide

theorem test_witness_StepRunsTheDecodedCommand :
    busy.build.valid = true ∧ busy.resetIn = .off ∧ busy.nextPort = some (.tick, []) ∧
    decode ((busy.port .tick).pending.headD 0) = .ok (.txqPut 1) ∧
    (let s := { busy with portT := ⟨[0x8000000000000000], []⟩ };
      s.nextPort = some (.tick, []) ∧ decode ((s.port .tick).pending.headD 0) = .error .reservedUnit) := by decide

theorem test_witness_PortsAreServedOneCommandAtATime :
    tiny.build.valid = true ∧ tiny.resetIn = .off ∧ tiny.portT.pending = [] ∧ tiny.portA.pending = [] ∧
    busy.portT.pending ≠ [] ∧ busy.portA.pending = [] ∧
    ({ busy with portA := ⟨[0], []⟩ } : State).portA.pending ≠ [] ∧
    ({ busy with portA := ⟨[0], []⟩ } : State).portOrder = [] ∧
    ({ busy with portA := ⟨[0], []⟩, portOrder := [.app] } : State).portOrder = .app :: [] ∧
    ({ tiny with portA := ⟨[0], []⟩ } : State).portT.pending = [] := by decide

theorem test_witness_ResetInputReachesResetState :
    ({ busy with resetIn := .betweenCommands } : State).resetIn = .betweenCommands ∧
    ({ tiny with resetIn := .duringCommand } : State).nextPort = none ∧
    ({ busy with resetIn := .duringCommand } : State).nextPort = some (.tick, []) ∧ busy.build.valid = true := by decide

theorem test_witness_EveryCommandEndsWithOneResponse :
    queueReady (.txqPut 1) busy = true ∧ queueReady .rxqGet busy = true ∧ queueReady .facEncodeMessage busy = true := by
  decide

/-- Full and empty queues of both instances, and a step that faults under a valid build. -/
theorem test_witness_OnlyUncheckedQueueCommandsFault :
    (let s := { tiny with txq := ⟨3, 0, []⟩, rxq := ⟨2, 0, []⟩ };
      (s.txq.put + 1) % s.build.txqN = s.txq.get ∧ (s.rxq.put + 1) % s.build.rxqN = s.rxq.get) ∧
    tiny.txq.put = tiny.txq.get ∧ tiny.rxq.put = tiny.rxq.get ∧
    (busy.txq.put + 1) % busy.build.txqN ≠ busy.txq.get ∧ (busy.rxq.put + 1) % busy.build.rxqN ≠ busy.rxq.get ∧
    busy.txq.put ≠ busy.txq.get ∧ busy.rxq.put ≠ busy.rxq.get ∧
    after (step (tiny.withFetchWord 64 0x6300000000000000)) = none := by decide

theorem test_witness_OnlyUncheckedQueueCommandsFault_others :
    (∀ d, Instr.facNop ≠ .txqPut d) ∧ (∀ d, Instr.facNop ≠ .rxqPut d) ∧ Instr.facNop ≠ .txqGet ∧ Instr.facNop ≠ .rxqGet :=
  ⟨fun _ => nofun, fun _ => nofun, nofun, nofun⟩

theorem test_witness_QueueObserversReportOccupancy : 0 < busy.build.txqN ∧ 0 < busy.build.rxqN := by decide

/-- Room with the cursor at its last slot, and full. -/
theorem test_witness_QueuePutStoresAtTheTail :
    (let s := { tiny with txq := ⟨3, 2, [(2, 1)]⟩, rxq := ⟨2, 1, []⟩ };
      Memory.wf s.txq.slot = true ∧ (s.txq.put + 1) % s.build.txqN ≠ s.txq.get ∧
      Memory.wf s.rxq.slot = true ∧ (s.rxq.put + 1) % s.build.rxqN ≠ s.rxq.get) ∧
    (let s := { tiny with txq := ⟨3, 0, []⟩, rxq := ⟨2, 0, []⟩ };
      (s.txq.put + 1) % s.build.txqN = s.txq.get ∧ (s.rxq.put + 1) % s.build.rxqN = s.rxq.get) := by decide

theorem test_witness_QueueGetRemovesTheHead :
    busy.txq.put ≠ busy.txq.get ∧ busy.rxq.put ≠ busy.rxq.get ∧ tiny.txq.put = tiny.txq.get ∧
    tiny.rxq.put = tiny.rxq.get := by decide

/-- The last valid `n` and the first invalid one, both queues. -/
theorem test_witness_QueueLookupsNameTheSlot :
    (1 : Data).toNat < busy.txq.count busy.build.txqN ∧ busy.txq.count busy.build.txqN ≤ (2 : Data).toNat ∧
    (0 : Data).toNat < busy.rxq.count busy.build.rxqN ∧ busy.rxq.count busy.build.rxqN ≤ (1 : Data).toNat := by decide

theorem test_witness_QueuesKeepFifoOrder :
    QueueInv busy.build.txqN busy.txq ∧ QueueInv busy.build.rxqN busy.rxq ∧
    (after (execAll [.txqPut 1, .txqGet, .txqGet, .txqPut 0] busy)).isSome = true ∧
    (after (execAll [.rxqPut 1, .rxqGet] busy)).isSome = true := ⟨busy_txq, busy_rxq, by decide, by decide⟩

theorem test_witness_OneChangedByteChangesTheCrc : (0x00 : BitVec 8) ≠ 0x80 := by decide

theorem test_witness_SendFrameBitsQueuesTheFrame :
    QueueInv busy.build.txqN busy.txq ∧ busy.build.txqN - 1 - busy.txq.count busy.build.txqN = 1 :=
  ⟨busy_txq, by decide⟩

theorem test_witness_FramesHoldNoFalseBoundary :
    [0x7E, 0x7D].flatMap escapeByte = [0x7E, 0x7D].flatMap escapeByte ∧
    (stuffBits 0 [true, true, true, true, true]).1 = (stuffBits 0 [true, true, true, true, true]).1 := by decide

/-- 1 byte buffered; 2 with a wrong CRC; 3 with the right one, a message pending and none pending. -/
theorem test_witness_BoundaryDeliversOrDiscards :
    ({ busy.fc with pos := 1 } : FcRegs).pos < 2 ∧
    (let f : FcRegs := { busy.fc with pos := 2 }; 2 ≤ f.pos ∧ f.receivedCrc ≠ f.rxCrc) ∧
    (2 ≤ busy.fc.pos ∧ busy.fc.receivedCrc = busy.fc.rxCrc ∧ busy.fac.pendValid = true) ∧
    (free.fc.receivedCrc = free.fc.rxCrc ∧ free.fac.pendValid = false ∧ Memory.wf free.fac.pend = true) := by decide

/-- The buffer with one place left and full. -/
theorem test_witness_OtherOctetsAreUnescapedAndStored :
    (0x5E : BitVec 8) ≠ 0x7E ∧ (0x5E : BitVec 8) ≠ 0x7D ∧ ({ tiny.fc with discard := true } : FcRegs).discard = true ∧
    busy.fc.discard = false ∧ busy.fc.pos ≠ busy.build.maxFrameLen ∧ Memory.wf busy.fc.buf = true ∧
    ({ busy.fc with pos := 4 } : FcRegs).pos = busy.build.maxFrameLen := by decide

/-- The last zero of a flag; a stuffed zero; a bit that does not complete an octet; one that does. -/
theorem test_witness_ReceivedBitsFormOctets :
    ((0xFC : BitVec 8) >>> 1) ||| 0 = 0x7E ∧
    (((0xF8 : BitVec 8) >>> 1) ||| 0 ≠ 0x7E ∧ (((0xF8 : BitVec 8) >>> 1) ||| 0) &&& 0xFC = 0x7C) ∧
    ((tiny.fc.sr >>> 1) ||| 0x80 ≠ 0x7E ∧ ((tiny.fc.sr >>> 1) ||| 0x80) &&& 0xFC ≠ 0x7C ∧ tiny.fc.nbits ≠ 7) ∧
    ((busy.fc.sr >>> 1) ||| 0x80 ≠ 0x7E ∧ ((busy.fc.sr >>> 1) ||| 0x80) &&& 0xFC ≠ 0x7C ∧ busy.fc.nbits = 7) := by decide

/-- A sender with the longest payload that the receiver `tiny` can hold. -/
def longSender : State := { busy with fac := { busy.fac with txbuf := [(0, 0x7E), (1, 0x7D)], txLen := 2 } }

theorem test_witness_ByteFramesRoundTrip :
    (after (exec .fcSendFrameBytes longSender)).isSome = true ∧
    longSender.build.crcPoly = tiny.build.crcPoly ∧ longSender.fc.crcBE = tiny.fc.crcBE ∧
    longSender.fac.txLen + 2 ≤ tiny.build.maxFrameLen ∧
    tiny.fc.pos = 0 ∧ tiny.fc.rxCrc = 0xFFFF ∧ tiny.fc.inEsc = false ∧ tiny.fc.discard = false ∧
    tiny.fac.pendValid = false ∧ Memory.wf tiny.fc.buf = true ∧ Memory.wf tiny.fac.pend = true := by decide +kernel

/-- `longSender` with the TXQ of the default build, empty. -/
def longBitSender : State := { longSender with build := { tinyBuild with txqN := 128 }, txq := ⟨0, 0, []⟩ }

theorem test_witness_BitFramesRoundTrip :
    QueueInv longBitSender.build.txqN longBitSender.txq ∧
    field (fun u => u.md.txOverflow) (exec .fcSendFrameBits longBitSender) = some false ∧
    longBitSender.build.crcPoly = tiny.build.crcPoly ∧ longBitSender.fc.crcBE = tiny.fc.crcBE ∧
    longBitSender.fac.txLen + 2 ≤ tiny.build.maxFrameLen ∧ tiny.fc = tiny.fc.cleared ∧
    tiny.fac.pendValid = false ∧ Memory.wf tiny.fc.buf = true ∧ Memory.wf tiny.fac.pend = true :=
  ⟨⟨by decide, by decide, by decide, by decide⟩, by decide +kernel, by decide +kernel⟩

theorem test_witness_ChangedPayloadByteIsNotDelivered :
    (0x7E : BitVec 8) ≠ 0x7F ∧ tiny.build.crcPoly = 0x1021 ∧
    ([0x41] : List (BitVec 8)).length + ([] : List (BitVec 8)).length + 3 ≤ tiny.build.maxFrameLen ∧
    tiny.fc.pos = 0 ∧ tiny.fc.rxCrc = 0xFFFF ∧ tiny.fc.inEsc = false ∧ tiny.fc.discard = false ∧
    Memory.wf tiny.fc.buf = true := by decide

/-- The four SETUPs: the shortest and the longest valid symbol, and rates just outside (10_state.md R23). -/
theorem test_witness_setups_valid_and_invalid :
    ({ tiny.cfg with sampleRate := 2, symbolRate := 1 } : CfgRegs).valid = true ∧
    ({ tiny.cfg with sampleRate := 65535, symbolRate := 1 } : CfgRegs).valid = true ∧
    ({ tiny.cfg with sampleRate := 1, symbolRate := 1 } : CfgRegs).valid = false ∧
    ({ tiny.cfg with sampleRate := 65536, symbolRate := 1 } : CfgRegs).valid = false ∧
    ({ tiny.cfg with symbolRate := 0 } : CfgRegs).valid = false := by decide

theorem test_witness_AddSymbolQueuesOrReportsOverflow :
    ((busy.txq.put + 1) % busy.build.txqN ≠ busy.txq.get ∧ Memory.wf busy.txq.slot = true) ∧
    (let s := { tiny with txq := ⟨3, 0, []⟩ }; (s.txq.put + 1) % s.build.txqN = s.txq.get) := by decide

theorem test_witness_PreambleAndPostambleAreQueued :
    QueueInv busy.build.txqN busy.txq ∧ QueueInv tiny.build.txqN tiny.txq :=
  ⟨busy_txq, ⟨by decide, by decide, by decide, by decide⟩⟩

/-- `busy` idle in a build of 2-bit items, an item of 2 at the head of TXQ and of RXQ. -/
def wideItems : State :=
  { busy with build := { tinyBuild with qItemBits := 2 }, md := tiny.md, txq := ⟨1, 3, [(3, 2)]⟩, rxq := ⟨1, 0, [(0, 2)]⟩ }

/-- Idle with nothing queued; the last sample of a symbol; idle with a symbol queued; idle with a wide item queued, which a
direct PUT stores, and which sends tone 0. -/
theorem test_witness_GetSampleEmitsThenAdvances :
    (tiny.md.active = false ∧ tiny.txq.put = tiny.txq.get) ∧
    (busy.md.active = true ∧ busy.md.symPos + 1 = busy.md.sps) ∧
    (let s := { busy with md := tiny.md }; s.md.active = false ∧ s.txq.put ≠ s.txq.get ∧
      Memory.read s.txq.slot s.txq.get = 1) ∧
    (wideItems.md.active = false ∧ wideItems.txq.put ≠ wideItems.txq.get ∧
      2 ≤ Memory.read wideItems.txq.slot wideItems.txq.get ∧
      field (fun t => t.md.curInc) (exec .mdGetSample wideItems) = some wideItems.md.inc0) ∧
    field (fun t => t.txq.items 4) (exec (.txqPut 2) { wideItems with txq := ⟨3, 3, []⟩ }) = some [2] := by decide

/-- The first and the last entry of the smallest and of the default table. -/
theorem test_witness_SineIsOddAndMirrored :
    ({} : Build).valid = true ∧ 63 < 2 ^ ({} : Build).qtabBits ∧
    ({ qtabBits := 1, phaseBits := 3, sineAmpl := 1, sampleBits := 2 } : Build).valid = true ∧
    0 < 2 ^ ({ qtabBits := 1, phaseBits := 3, sineAmpl := 1, sampleBits := 2 } : Build).qtabBits := by decide

theorem test_witness_QueuedSymbolsGiveSpsSamplesEach :
    (let s := { busy with md := tiny.md }; QueueInv s.build.txqN s.txq ∧ MdInv s.build s.md ∧ s.md.active = false) :=
  ⟨busy_txq, ⟨by decide, by decide, by decide, by decide, by decide⟩, by decide⟩

theorem test_witness_PhaseAdvancesOnlyWithSamples :
    (after (exec .mdGetSample busy)).isSome = true ∧ busy.md.active = true ∧
    (tiny.md.active = false ∧ tiny.txq.canGet = false ∧ (after (exec .mdGetSample tiny)).isSome = true) ∧
    (after (exec .mdClear busy)).isSome = true ∧ (after (exec .facSetup busy)).isSome = true ∧
    (after (exec .facNop busy)).isSome = true ∧
    Instr.facNop ∉ [Instr.mdGetSample, .facEncodeGetSample, .mdSetup, .mdClear, .facSetup, .facEncodeMessage] := by decide

/-- `HIST_N = 2`: not primed; out of tolerance; in tolerance at both ends of the window, without and with an edge, the
history not full and full. -/
theorem test_witness_TransitionsAreGatedPushedAndDecided :
    tiny.cr.lastValid = false ∧ 1 ≤ tiny.build.histN ∧ 0 < tiny.cr.sps ∧ busy.cr.lastValid = true ∧
    ((90 : Nat) * 80 ≤ 100 * (72 : BitVec 32).toNat ∧ 100 * (88 : BitVec 32).toNat ≤ 110 * 80) ∧
    ¬ ((90 : Nat) * 80 ≤ 100 * (71 : BitVec 32).toNat ∧ 100 * (71 : BitVec 32).toNat ≤ 110 * 80) ∧
    busy.cr.hist.length + 1 = busy.build.histN ∧ (busy.cr.hist ++ [Transition.mk 260 80]).length = busy.build.histN ∧
    ([Transition.mk 180 80] : List Transition).length ≠ busy.build.histN := by decide

/-- `decided` exists: it is the centre window itself. -/
theorem test_witness_decided (s : State) (t : BitVec 32) : ∃ decided : Nat → Bool, ∀ e, decided e = true ↔
    (s.cr.cwLo.toNat : Int) * s.cr.sps ≤ 100 * (((t.toNat : Int) - e) % (s.cr.sps : Int)) ∧
    100 * (((t.toNat : Int) - e) % (s.cr.sps : Int)) ≤ (s.cr.cwHi.toNat : Int) * s.cr.sps :=
  ⟨fun _ => decide _, fun _ => decide_eq_true_iff⟩

theorem test_witness_ClockRecoveryConverges :
    1 ≤ tiny.build.histN ∧ 2 ≤ tiny.cr.sps ∧ tiny.cr.sps % 2 = 0 ∧ tiny.cr = tiny.cr.cleared ∧
    50 < tiny.cr.tolLo.toNat ∧ tiny.cr.tolLo.toNat ≤ 100 ∧ 100 ≤ tiny.cr.tolHi.toNat ∧
    0 < tiny.cr.cwLo.toNat ∧ tiny.cr.cwLo.toNat ≤ 50 ∧ 50 ≤ tiny.cr.cwHi.toNat ∧
    100 + (([true, false] : List Bool).length + 1) * tiny.cr.sps < 2 ^ 32 ∧
    manchesterStream 80 100 [false, true, false] = [(180, true), (220, false), (260, true), (340, true)] := by decide

/-- A sample that wraps the counter, and one that does not. -/
theorem test_witness_SamplesAreCountedAndFiltered :
    1 ≤ busy.build.sampleBits ∧ busy.build.sampleBits ≤ 32 ∧ field (fun t => t.dm.cnt) (exec (.dmProcessSample 0x8000) busy) = some 0 ∧
    field (fun t => t.dm.cnt) (exec (.dmProcessSample 0x7FFF) tiny) = some 1 := by decide

/-- A state whose next sample flips the level at a data sample point: the interval is one symbol, the edge half a symbol
before. -/
def flipping : State :=
  { busy with
    build := { tinyBuild with cntBits := 32 }
    dm := { busy.dm with cnt := 259, win := [false, true] } }

/-- Every branch of the marks: attack and release of each. -/
theorem test_witness_EnvelopeAndMarksFollow :
    field (fun t => (decide (busy.dm.hi < t.dm.env), decide (busy.dm.lo ≤ t.dm.env))) (exec (.dmProcessSample 20000) busy) =
      some (true, true) ∧
    (let s := { busy with dm := { busy.dm with env := 0, lo := 5 } };
      field (fun t => (decide (t.dm.env ≤ s.dm.hi), decide (t.dm.env < s.dm.lo))) (exec (.dmProcessSample 0) s) =
        some (true, true)) ∧
    busy.dm.env ≤ 2 ^ 31 ∧ busy.dm.hi ≤ 2 ^ 31 ∧ busy.dm.lo ≤ 2 ^ 31 := by decide

/-- No flip; a flip that is a symbol, with room in RXQ and without; a flip that is no symbol. -/
theorem test_witness_LevelFlipsBecomeSymbols :
    1 ≤ flipping.build.majW ∧ flipping.dm.win.length = flipping.build.majW ∧
    lastResponse (exec (.dmProcessSample 0) tiny) = some 0x8000000000000000 ∧
    lastResponse (exec (.dmProcessSample 20000) flipping) = some 0x8000000000000019 ∧
    lastResponse (exec (.dmProcessSample 20000) { flipping with rxq := ⟨2, 0, []⟩ }) = some 0x800000000000001C ∧
    lastResponse (exec (.dmProcessSample 20000) { flipping with cr := tiny.cr }) = some 0x8000000000000018 := by decide

theorem test_witness_ReadOnlyCommandsChangeNothing :
    isReadOnly (.txqNthFromGet 2) = true ∧ isReadOnly .facNop = true ∧ isReadOnly (.facCfgRead 10) = true := by decide

theorem test_witness_EncodeMessageQueuesTheTransmission :
    QueueInv busy.build.txqN busy.txq ∧ QueueInv longBitSender.build.txqN longBitSender.txq :=
  ⟨busy_txq, ⟨by decide, by decide, by decide, by decide⟩⟩

/-- A sample after which RXQ holds two symbols to drain; and one after which it holds a wide item. -/
theorem test_witness_DecodeSampleDrainsTheReceiveQueue :
    QueueInv flipping.build.rxqN flipping.rxq ∧ ((dmProcess 20000 flipping).1.rxq.items 3).length = 2 ∧
    QueueInv wideItems.build.rxqN wideItems.rxq ∧ (dmProcess 0 wideItems).1.rxq.items 3 = [2] :=
  ⟨busy_rxq, by decide, ⟨by decide, by decide, by decide, by decide⟩, by decide⟩

theorem test_witness_PendingMessageCommands :
    busy.fac.pendValid = true ∧ free.fac.pendValid = false ∧ (0 : BitVec 32).toNat < busy.fac.pendLen ∧
    busy.fac.pendLen ≤ (1 : BitVec 32).toNat := by decide

theorem test_witness_StagingBufferCommands :
    longSender.fac.txLen = longSender.build.txbufLen ∧ busy.fac.txLen ≠ busy.build.txbufLen ∧
    Memory.wf busy.fac.txbuf = true := by decide

theorem test_witness_ConfigurationRegisterAccess :
    (8 : BitVec 8).toNat < 9 ∧ 9 ≤ (9 : BitVec 8).toNat ∧ 10 ≤ (10 : BitVec 8).toNat := by decide

/-- A valid frame arrives while a message is pending; and a step that releases the message. -/
theorem test_witness_PendingMessageIsKept :
    ((after (exec (.fcRxByte 0x7E) busy)).isSome = true ∧ busy.fac.pendValid = true ∧
      Instr.fcRxByte 0x7E ≠ .facDecodeClearMessage ∧ Instr.fcRxByte 0x7E ≠ .facSetup) ∧
    field (fun t => t.fac.pendValid) (step (busy.withFetchWord 64 0x0600000000000000)) = some false := by decide

/-- Two states whose receive paths agree and whose transmit paths do not. -/
theorem test_witness_TransmitAndReceivePathsAreIsolated :
    isTransmit .facEncodeMessage = true ∧ (after (exec .facEncodeMessage busy)).isSome = true ∧
    isReceive (.facDecodeProcessSample 20000) = true ∧ (after (exec (.facDecodeProcessSample 20000) busy)).isSome = true ∧
    ({ busy with md := tiny.md, txq := tiny.txq, fac := { busy.fac with txLen := 0 } } : State).rxView = busy.rxView := by
  decide +kernel

/-- `busy` with other contents in elements that hold nothing live. -/
def busyStale : State :=
  { busy with
    txq := ⟨1, 3, [(2, 1), (3, 1)]⟩
    rxq := ⟨1, 0, [(0, 1), (2, 1)]⟩
    fc := { busy.fc with buf := busy.fc.buf ++ [(3, 9)] }
    fac := { busy.fac with txbuf := [(0, 0x7E), (1, 7)], pend := [(0, 0x41), (1, 9)] } }

theorem test_witness_StaleMemoryIsNeverObservable : Invariant busy ∧ Invariant busyStale ∧ LiveEq busy busyStale :=
  ⟨test_witness_invariant.1,
    ⟨by decide, ⟨by decide, by decide, by decide, by decide, by decide⟩, ⟨by decide, by decide, by decide, by decide⟩,
      ⟨by decide, by decide, by decide, by decide⟩, by decide, by decide, busy_cr, busy_dm, busy_md,
      ⟨by decide, by decide, by decide, by decide, by decide, by decide⟩,
      ⟨by decide, by decide, by decide, by decide, by decide, by decide, by decide⟩⟩,
    ⟨rfl, by decide, by decide, by decide, by decide, by decide⟩⟩

end Sys2Proof.Tests
end

section
/-! SUPPORT. Facts about the model's operations that the statements of 10_state.md need and Sys2Proof/Laws/ does not give:
the configuration registers, a memory's contents after a write or a copy, a queue's contents after PUT, GET and CLEAR,
the range of a sample, and one equation per case of the SETUP commands and of the receive parser. -/

namespace Sys2Proof.Machine

/-! ### Configuration registers -/

/-- A register reads back what was written to it, and a write changes no other register (10_state.md R21). -/
theorem CfgRegs.read_write (c : CfgRegs) {k j : Nat} (hk : k < 9) (hj : j < 9) (v : BitVec 32) :
    (c.write k v).read j = if j = k then v else c.read j := by
  interval_cases k <;> interval_cases j <;> rfl

/-- The masks of 10_state.md R22, by ranges of the index. -/
theorem cfgMask_eq {k : Nat} (hk : k < 9) :
    cfgMask k = if k < 4 then 0xFFFFFFFF else if k = 4 then 0x00000003 else 0x0000FFFF := by
  interval_cases k <;> rfl

/-! ### Words and samples -/

/-- A field masked to bits outside `n` reads as zero under `n`. -/
theorem and_mask_eq_zero {m n : BitVec 32} (v : BitVec 32) (h : m &&& n = 0) : v &&& m &&& n = 0 := by
  simp [BitVec.and_assoc, h]

/-- A 16-bit operand fills no reserved bit of a length register (43_modulator.md R174, R175). -/
theorem setWidth_reserved (n : BitVec 16) : n.setWidth 32 &&& 0xFFFF0000#32 = 0 := by
  apply BitVec.eq_of_getLsbD_eq
  intro i hi
  by_cases h : i < 16
  · have : (0xFFFF0000#32).getLsbD i = false := by interval_cases i <;> rfl
    simp [this]
  · simp [BitVec.getLsbD_of_ge n i (by omega)]

/-- Two's complement of `n` bits lies in its range (00_scope.md R10). -/
theorem sext_range {n : Nat} (v : Nat) (hn : 1 ≤ n) : -(2 ^ (n - 1)) ≤ sext n v ∧ sext n v < 2 ^ (n - 1) := by
  obtain ⟨k, rfl⟩ : ∃ k, n = k + 1 := ⟨n - 1, by omega⟩
  have hlt : v % 2 ^ (k + 1) < 2 ^ (k + 1) := Nat.mod_lt _ (by positivity)
  have hcast : ((2 ^ k : Nat) : Int) = 2 ^ k := by push_cast; rfl
  rw [pow_succ] at hlt
  unfold sext
  rw [Nat.add_sub_cancel, pow_succ, pow_succ, ← hcast]
  split <;> omega

/-- A sample operand is a sample (20_memory.md R64). -/
theorem operandSample_range {b : Build} (hb : b.valid = true) (d : Data) : SampleInv b (operandSample b d) := by
  obtain ⟨-, -, -, -, -, -, -, -, -, hpos, hlt⟩ := (build_valid_iff b).1 hb
  have hbits : 1 ≤ b.sampleBits := by
    by_contra h
    rw [show b.sampleBits - 1 = 0 by omega] at hlt
    omega
  have hrange := sext_range (n := min b.sampleBits 32) d.toNat (by omega)
  have hpow : (2 : Int) ^ (min b.sampleBits 32 - 1) ≤ 2 ^ (b.sampleBits - 1) :=
    pow_le_pow_right₀ (by norm_num) (by omega)
  unfold operandSample SampleInv
  omega

/-- The magnitude of a filter output (42_demodulator.md R145). -/
theorem natAbs_toInt_le (y : BitVec 32) : y.toInt.natAbs ≤ 2 ^ 31 := by
  have := BitVec.toInt_lt (x := y)
  have := BitVec.le_toInt y
  norm_num at *
  omega

/-! ### Memories -/

section
variable {α : Type} [DecidableEq α] [Inhabited α]

/-- Every entry of a written memory was there before or is the one written. -/
theorem Memory.mem_write_cases {m : Memory α} {i : Nat} {v : α} {c : Nat × α} (h : c ∈ Memory.write m i v) :
    c ∈ m ∨ c = (i, v) := by
  induction m with
  | nil => by_cases hv : v = Memory.stale <;> simp [Memory.write, hv] at h; simp [h]
  | cons d m ih =>
    obtain ⟨k, x⟩ := d
    unfold Memory.write at h
    split_ifs at h with h1 h2 h3 h4
    · exact .inl h
    · exact (List.mem_cons.1 h).symm
    · exact .inl (List.mem_cons_of_mem _ h)
    · exact (List.mem_cons.1 h).symm.imp_left (List.mem_cons_of_mem _)
    · rcases List.mem_cons.1 h with rfl | h'
      · exact .inl List.mem_cons_self
      · exact (ih h').imp_left (List.mem_cons_of_mem _)

/-- A write at the end of the first `n` elements. -/
theorem Memory.firstN_write_succ {m : Memory α} (hm : Memory.wf m = true) (n : Nat) (v : α) :
    Memory.firstN (Memory.write m n v) (n + 1) = Memory.firstN m n ++ [v] := by
  have hold : ∀ i ∈ List.range n, Memory.read (Memory.write m n v) i = Memory.read m i := fun i hi =>
    Memory.read_write_other m v (List.mem_range.1 hi).ne
  simp [Memory.firstN, List.range_succ, Memory.read_write_same hm, List.map_congr_left hold]

/-- A copy of `n` elements makes the first `n` those of the source (46_facade.md R263). -/
theorem Memory.firstN_copy (src : Memory α) (n : Nat) {dst : Memory α} (h : Memory.wf dst = true) :
    Memory.firstN (Memory.copy src n dst) n = Memory.firstN src n := by
  rw [Memory.firstN_eq_iff]
  intro i hi
  rw [Memory.read_copy src n h, if_pos hi]

omit [DecidableEq α] in
/-- Memories that agree on their first elements agree on fewer of them. -/
theorem Memory.firstN_eq_of_le {m m' : Memory α} {k n : Nat} (hk : k ≤ n)
    (h : Memory.firstN m n = Memory.firstN m' n) : Memory.firstN m k = Memory.firstN m' k := by
  rw [Memory.firstN_eq_iff] at *
  exact fun i hi => h i (by omega)

end

/-! ### Queues -/

/-- A cursor position `k` slots on, for a `k` of at most one turn (40_queue.md R100). -/
theorem add_mod_wrap {a k n : Nat} (ha : a < n) (hk : k ≤ n) :
    (a + k) % n = if a + k < n then a + k else a + k - n := by
  split
  · next h => exact Nat.mod_eq_of_lt h
  · next h => rw [Nat.mod_eq_sub_mod (by omega), Nat.mod_eq_of_lt (by omega)]

section
variable {n : Nat} {q : QueueRegs}

theorem QueueRegs.count_eq (hq : QueueInv n q) :
    q.count n = if q.get ≤ q.put then q.put - q.get else q.put + n - q.get := by
  obtain ⟨hput, hget, -, -⟩ := hq
  have hcast := imod_cast ((q.put : Int) - q.get) (m := n) (by omega)
  unfold QueueRegs.count
  split
  · rw [Int.emod_eq_of_lt (by omega) (by omega)] at hcast; omega
  · rw [← Int.add_emod_right, Int.emod_eq_of_lt (by omega) (by omega)] at hcast; omega

/-- The slot after the last item is the one at `put`. -/
theorem QueueRegs.slot_count (hq : QueueInv n q) : (q.get + q.count n) % n = q.put := by
  have hput := hq.put_lt
  have hget := hq.get_lt
  have hcount := QueueRegs.count_eq hq
  rw [add_mod_wrap hget (by split at hcount <;> omega)]
  split_ifs at * <;> omega

/-- No item lies in the slot at `put`. -/
theorem QueueRegs.slot_ne_put (hq : QueueInv n q) {k : Nat} (hk : k < q.count n) : (q.get + k) % n ≠ q.put := by
  have hput := hq.put_lt
  have hget := hq.get_lt
  have hcount := QueueRegs.count_eq hq
  rw [add_mod_wrap hget (by split at hcount <;> omega)]
  split_ifs at * <;> omega

/-- PUT keeps the cursors and the slot memory in range (40_queue.md R102). -/
theorem QueueInv.push (hq : QueueInv n q) (v : Nat) : QueueInv n (q.push n v) where
  put_lt := Nat.mod_lt _ (Nat.zero_lt_of_lt hq.put_lt)
  get_lt := hq.get_lt
  slot_wf := Memory.wf_write hq.slot_wf _ _
  slot_bound := Memory.bound_write hq.slot_bound hq.put_lt

/-- GET keeps the cursors and the slot memory in range (40_queue.md R104). -/
theorem QueueInv.pop (hq : QueueInv n q) : QueueInv n (q.pop n) :=
  { hq with get_lt := Nat.mod_lt _ (Nat.zero_lt_of_lt hq.put_lt) }

/-- CLEAR keeps the cursors and the slot memory in range (40_queue.md R105). -/
theorem QueueInv.cleared (hq : QueueInv n q) : QueueInv n q.cleared :=
  { hq with
    put_lt := Nat.zero_lt_of_lt hq.put_lt
    get_lt := Nat.zero_lt_of_lt hq.put_lt }

theorem QueueRegs.count_push (hq : QueueInv n q) (hc : q.canPut n = true) (v : Nat) :
    (q.push n v).count n = q.count n + 1 := by
  have hput := hq.put_lt
  have hget := hq.get_lt
  rw [QueueRegs.canPut_iff, add_mod_wrap hput (by omega)] at hc
  rw [QueueRegs.count_eq hq, QueueRegs.count_eq (hq.push v)]
  simp only [QueueRegs.push, add_mod_wrap hput (show 1 ≤ n by omega)]
  split_ifs at * <;> omega

theorem QueueRegs.count_pop (hq : QueueInv n q) (hc : q.canGet = true) : q.count n = (q.pop n).count n + 1 := by
  have hput := hq.put_lt
  have hget := hq.get_lt
  rw [QueueRegs.canGet_iff] at hc
  rw [QueueRegs.count_eq hq, QueueRegs.count_eq hq.pop]
  simp only [QueueRegs.pop, add_mod_wrap hget (show 1 ≤ n by omega)]
  split_ifs at * <;> omega

/-- The contents after PUT: the new item is the last (40_queue.md R102). -/
theorem QueueRegs.items_push (hq : QueueInv n q) (hc : q.canPut n = true) (v : Nat) :
    (q.push n v).items n = q.items n ++ [v] := by
  have hold : ∀ k ∈ List.range (q.count n),
      Memory.read (Memory.write q.slot q.put v) ((q.get + k) % n) = Memory.read q.slot ((q.get + k) % n) :=
    fun k hk => Memory.read_write_other _ _ (QueueRegs.slot_ne_put hq (List.mem_range.1 hk))
  have hnew : Memory.read (Memory.write q.slot q.put v) ((q.get + q.count n) % n) = v := by
    rw [QueueRegs.slot_count hq, Memory.read_write_same hq.slot_wf]
  rw [QueueRegs.items, QueueRegs.count_push hq hc, List.range_succ, List.map_append, List.map_singleton]
  exact congrArg₂ (fun old new => old ++ [new]) (List.map_congr_left hold) hnew

/-- The contents before GET: the head, then what GET leaves (40_queue.md R104). -/
theorem QueueRegs.items_pop (hq : QueueInv n q) (hc : q.canGet = true) :
    q.items n = q.head :: (q.pop n).items n := by
  have hslot : ∀ k, (q.get + (k + 1)) % n = ((q.get + 1) % n + k) % n := fun k => by
    rw [Nat.mod_add_mod]; congr 1; omega
  rw [QueueRegs.items, QueueRegs.count_pop hq hc, List.range_succ_eq_map, List.map_cons, List.map_map]
  refine congrArg₂ List.cons ?_ (List.map_congr_left fun k _ => congrArg (Memory.read q.slot) (hslot k))
  rw [Nat.add_zero, Nat.mod_eq_of_lt hq.get_lt, QueueRegs.head]

/-- A cleared queue holds nothing (40_queue.md R105). -/
theorem QueueRegs.items_cleared (n : Nat) (q : QueueRegs) : q.cleared.items n = [] := by
  simp [QueueRegs.items, QueueRegs.count, QueueRegs.cleared, imod]

end

/-- Q.PUT keeps the items within their width (40_queue.md R102). -/
theorem ItemInv.push {b : Build} {q : QueueRegs} (hi : ItemInv b q) (n v : Nat) :
    ItemInv b (q.push n (Build.item b v)) := by
  intro c hc
  rcases Memory.mem_write_cases hc with hold | rfl
  · exact hi c hold
  · exact Nat.mod_lt _ (by positivity)

/-! ### The SETUP commands, one equation per case -/

section
variable {s : State}

/-- CR.SETUP with a valid configuration (41_clock_recovery.md R121). -/
theorem crSetup_valid (h : s.cfg.valid = true) :
    crSetup s = ((s.setCr (s.cr.configure s.cfg).cleared).setCfgErr false, respond true 0) := by
  rw [crSetup, if_pos h]; rfl

/-- CR.SETUP with an invalid configuration. -/
theorem crSetup_invalid (h : ¬ s.cfg.valid = true) : crSetup s = (s.setCfgErr true, respond false 0) := by
  rw [crSetup, if_neg h]

/-- DM.SETUP with a valid configuration (42_demodulator.md R140). -/
theorem dmSetup_valid (h : s.cfg.valid = true) :
    dmSetup s =
      ((dmClear (crSetup (s.setDm { s.dm with man := s.cfg.manchester })).1).1.setCfgErr false, respond true 0) := by
  rw [dmSetup, if_pos h]

/-- DM.SETUP with an invalid configuration. -/
theorem dmSetup_invalid (h : ¬ s.cfg.valid = true) : dmSetup s = (s.setCfgErr true, respond false 0) := by
  rw [dmSetup, if_neg h]

/-- MD.SETUP with a valid configuration (43_modulator.md R172). -/
theorem mdSetup_valid (h : s.cfg.valid = true) :
    mdSetup s = (((s.setMd (s.md.configure s.cfg).cleared).setCfgErr false).clearTxq, respond true 0) := by
  rw [mdSetup, if_pos h]; rfl

/-- MD.SETUP with an invalid configuration. -/
theorem mdSetup_invalid (h : ¬ s.cfg.valid = true) : mdSetup s = (s.setCfgErr true, respond false 0) := by
  rw [mdSetup, if_neg h]

/-- FAC.SETUP with a valid configuration (46_facade.md R252). -/
theorem facSetup_valid (h : s.cfg.valid = true) :
    facSetup s =
      ((fcSetup (dmSetup (mdSetup s).1).1).1.setFac (fcSetup (dmSetup (mdSetup s).1).1).1.fac.cleared,
        respond true 0) := by
  rw [facSetup, if_pos h]

/-- FAC.SETUP with an invalid configuration. -/
theorem facSetup_invalid (h : ¬ s.cfg.valid = true) : facSetup s = (s.setCfgErr true, respond false 0) := by
  rw [facSetup, if_neg h]

end

/-! ### A sample before its transition -/

/-- The demodulator's registers after the filter, the marks and the window of one sample, and whether the accepted level
flipped (42_demodulator.md R144 to R149). -/
def DmRegs.sampled (b : Build) (d : DmRegs) (x : Int) : DmRegs × Bool :=
  (d.measure b x).window (d.measure b x).slice

/-- The block after one sample's steps before `onTransition()` (42_demodulator.md R142). -/
def State.sampled (s : State) (x : Int) : State :=
  (dmCount s).setDm ((dmCount s).dm.sampled (dmCount s).build x).1

/-- The sample flips the accepted level (42_demodulator.md R149). -/
def State.flips (s : State) (x : Int) : Bool := ((dmCount s).dm.sampled (dmCount s).build x).2

/-- DM.PROCESS_SAMPLE decides exactly on a flip (42_demodulator.md R142, R149). -/
theorem dmProcess_eq (x : Int) (s : State) :
    dmProcess x s =
      if s.flips x then
        ((dmOnTransition (s.sampled x)).1,
          { (dmOnTransition (s.sampled x)).2 with trans := true, level := (dmOnTransition (s.sampled x)).1.dm.level })
      else (s.sampled x, { level := (s.sampled x).dm.level }) := rfl

/-! ### The receive parser's bit collector -/

/-- `FC.acc <- acc`, `FC.nbits <- nbits`: the bit collector of FC.RX_BIT (45_frame_codec.md R221). -/
def State.setCollector (acc : BitVec 8) (nbits : Nat) (s : State) : State :=
  s.setFc { s.fc with acc := acc, nbits := nbits }

/-- `FC.sr` takes a bit (45_frame_codec.md R221, its first line). -/
def State.shiftIn (bit : Bool) (s : State) : State := s.setFc { s.fc with sr := shiftInBit bit s.fc.sr }

section
variable (acc : BitVec 8) (nbits : Nat) (s : State)

/-- The frame consumer does not touch the bit collector (46_facade.md R263). -/
theorem consume_setCollector (n : Nat) :
    consume n (s.setCollector acc nbits) = Prod.map (State.setCollector acc nbits) id (consume n s) := by
  unfold consume
  rw [apply_ite (Prod.map (State.setCollector acc nbits) id)]
  rfl

/-- A boundary does not touch the bit collector (45_frame_codec.md R218). -/
theorem fcBoundary_setCollector :
    fcBoundary (s.setCollector acc nbits) = Prod.map (State.setCollector acc nbits) id (fcBoundary s) := by
  have hconsume := consume_setCollector acc nbits (s.event .frameOk) (s.fc.pos - 2)
  unfold fcBoundary
  rw [apply_ite (Prod.map (State.setCollector acc nbits) id), apply_ite (Prod.map (State.setCollector acc nbits) id)]
  refine if_congr Iff.rfl (if_congr Iff.rfl ?_ rfl) rfl
  exact congrArg (fun r : State × Bool =>
    (r.1.setFc r.1.fc.endFrame, ({ frameOk := true, msgDropped := r.2 } : RxFlags))) hconsume

/-- A stored byte does not touch the bit collector (45_frame_codec.md R220). -/
theorem fcStore_setCollector (b : BitVec 8) :
    fcStore b (s.setCollector acc nbits) = Prod.map (State.setCollector acc nbits) id (fcStore b s) := by
  unfold fcStore
  rw [apply_ite (Prod.map (State.setCollector acc nbits) id)]
  rfl

/-- FC.RX_BYTE neither reads nor writes the bit collector (45_frame_codec.md R217 to R220). -/
theorem fcRxByte_setCollector (b : BitVec 8) :
    fcRxByte b (s.setCollector acc nbits) = Prod.map (State.setCollector acc nbits) id (fcRxByte b s) := by
  unfold fcRxByte
  simp only [apply_ite (Prod.map (State.setCollector acc nbits) id)]
  refine if_congr Iff.rfl (fcBoundary_setCollector acc nbits s) (if_congr Iff.rfl rfl (if_congr Iff.rfl rfl
    (if_congr Iff.rfl ?_ (fcStore_setCollector acc nbits s b))))
  exact fcStore_setCollector acc nbits (s.setFc { s.fc with inEsc := false }) (b ^^^ escMask)

end

/-- What FC.RX_BIT does, by the branches of 45_frame_codec.md R221: a boundary, a stuffed bit, an octet's last bit, any
other bit. A dispatched octet leaves the collector empty. -/
theorem fcRxBit_eq (bit : Bool) (s : State) :
    fcRxBit bit s =
      if shiftInBit bit s.fc.sr = flagOctet then
        ((fcRxByte flagOctet (s.shiftIn bit)).1.setCollector 0 0,
          { (fcRxByte flagOctet (s.shiftIn bit)).2 with flagSeen := true })
      else if shiftInBit bit s.fc.sr &&& 0xFC = 0x7C then (s.shiftIn bit, { destuffed := true })
      else if s.fc.nbits + 1 = 8 then
        ((fcRxByte (shiftInBit bit s.fc.acc) (s.shiftIn bit)).1.setCollector 0 0,
          { (fcRxByte (shiftInBit bit s.fc.acc) (s.shiftIn bit)).2 with byteDispatched := true })
      else ((s.shiftIn bit).setCollector (shiftInBit bit s.fc.acc) (s.fc.nbits + 1), {}) := by
  have hoctet := fcRxByte_setCollector (shiftInBit bit s.fc.acc) (s.fc.nbits + 1) (s.shiftIn bit)
    (shiftInBit bit s.fc.acc)
  refine if_congr Iff.rfl rfl (if_congr Iff.rfl rfl (if_congr Iff.rfl ?_ rfl))
  exact congrArg (fun r : State × RxFlags => (r.1.setCollector 0 0, { r.2 with byteDispatched := true })) hoctet

end Sys2Proof.Machine
end

section
/-! CERTIFICATE. The configuration registers (10_state.md R21, R22, R24). -/

namespace Sys2Proof.Machine

/-- FAC.CFG_WRITE with a register's index (46_facade.md R261). -/
theorem facCfgWrite_legal {k : BitVec 8} (hk : k.toNat < 9) (v : BitVec 32) (s : State) :
    facCfgWrite k v s = (s.setCfg (s.cfg.write k.toNat (v &&& cfgMask k.toNat)), respond true 0) := by
  rw [facCfgWrite, if_neg (by omega)]

/-- FAC.CFG_WRITE with any other index (10_state.md R22). -/
theorem facCfgWrite_illegal {k : BitVec 8} (hk : 9 ≤ k.toNat) (v : BitVec 32) (s : State) :
    facCfgWrite k v s = (s, respondIllegal) := by
  rw [facCfgWrite, if_pos hk]

/-- FAC.CFG_READ with a register's index (46_facade.md R262). -/
theorem facCfgRead_register {k : BitVec 8} (hk : k.toNat < 9) (s : State) :
    facCfgRead k s = (s, respond true (s.cfg.read k.toNat)) := by
  rw [facCfgRead, if_neg (by omega), if_neg (by omega)]

/-- FAC.CFG_READ of STATUS (10_state.md R24). -/
theorem facCfgRead_status (s : State) : facCfgRead 9 s = (s, respond true s.status) := rfl

/-- FAC.CFG_READ with an index past STATUS (10_state.md R22). -/
theorem facCfgRead_illegal {k : BitVec 8} (hk : 10 ≤ k.toNat) (s : State) : facCfgRead k s = (s, respondIllegal) := by
  rw [facCfgRead, if_pos hk]

/-- STATUS as a number (10_state.md R24). -/
theorem State.status_eq (s : State) :
    s.status = BitVec.ofNat 32 (s.fac.pendValid.toNat +
      2 * (s.md.active || decide (s.txq.count s.build.txqN ≠ 0)).toNat +
      4 * s.md.txOverflow.toNat + 8 * s.fac.cfgErr.toNat) := by
  simp only [State.status, statusWord, bitsData, bitsNat, zext32, Nat.pos_iff_ne_zero]
  congr 1
  ring

/-- The word of FAC.CFG_WRITE decodes to it at every index (30_encoding.md R83, R88). -/
theorem decode_cfgWrite (k : BitVec 8) (v : BitVec 32) : decode (cmdWord 0 10 k v) = .ok (.facCfgWrite k v) := by
  simp [decode, decodeRow, decodeFac, usesSel]

/-- The word of FAC.CFG_READ decodes to it at every index, whatever `DATA` is (30_encoding.md R83, R88). -/
theorem decode_cfgRead (k : BitVec 8) (v : BitVec 32) : decode (cmdWord 0 11 k v) = .ok (.facCfgRead k) := by
  simp [decode, decodeRow, decodeFac, usesSel]

/-- What FAC.CFG_WRITE leaves in the nine registers (46_facade.md R261, 10_state.md R22). -/
theorem exec_facCfgWrite_legal {k : BitVec 8} (hk : k.toNat < 9) (v : BitVec 32) (s : State) :
    ∃ c : CfgRegs, exec (.facCfgWrite k v) s = .next ((s.setCfg c).reply (respond true 0)) ∧
      c.read k.toNat =
        v &&& (if k.toNat < 4 then 0xFFFFFFFF else if k.toNat = 4 then 0x00000003 else 0x0000FFFF) ∧
      ∀ j < 9, j ≠ k.toNat → c.read j = s.cfg.read j := by
  refine ⟨_, congrArg finish (facCfgWrite_legal hk v s), ?_, fun j hj hne => ?_⟩
  · rw [CfgRegs.read_write _ hk hk, if_pos rfl, cfgMask_eq hk]
  · rw [CfgRegs.read_write _ hk hj, if_neg hne]

end Sys2Proof.Machine

namespace Sys2Proof.Proofs

open Sys2Proof.Machine

/-- Settles O57: the words by the decoder's rows, the index ranges by the cases of the two commands, the masks register by
register. -/
theorem configurationRegisterAccess : Obligations.ConfigurationRegisterAccess := by
  intro s k v
  have hstatus : exec (.facCfgRead 9) s = .next (s.reply (respond true s.status)) :=
    congrArg finish (facCfgRead_status s)
  rw [State.status_eq] at hstatus
  exact ⟨decode_cfgWrite k v, decode_cfgRead k v, fun hk => congrArg finish (facCfgWrite_illegal hk v s),
    fun hk => congrArg finish (facCfgRead_illegal hk s), fun hk => exec_facCfgWrite_legal hk v s,
    fun hk => congrArg finish (facCfgRead_register hk s), hstatus, rfl⟩

end Sys2Proof.Proofs
end

section
/-! CERTIFICATE. The invariant of 10_state.md R35, register file by register file and then operation by operation: each operation
of a unit leads from a state with the invariant to a state with the invariant. -/

namespace Sys2Proof.Machine

/-! ### Clock recovery -/

section
variable {b : Build} {c : CrRegs}

/-- CR.CLEAR reaches a consistent tracker from any with a `CR.sps` in range (41_clock_recovery.md R122). -/
theorem CrInv.of_cleared (hsps : 2 ≤ c.sps ∧ c.sps ≤ 65535) : CrInv b c.cleared where
  sps_range := hsps
  edge_lt := nofun
  hist_length := Nat.zero_le _
  uninitialized_hist _ := rfl

/-- An accepted transition keeps the edge inside a symbol and the history inside its depth (41_clock_recovery.md R125 to
R127). -/
theorem CrInv.acceptTransition (h : CrInv b c) (t iv : BitVec 32) : CrInv b (c.acceptTransition b.histN t iv) := by
  have hsps : 0 < c.sps := by have := h.sps_range; omega
  have hedge : c.edge.getD (c.seedEdge t iv) < c.sps := by
    cases he : c.edge with
    | none => exact imod_lt _ hsps
    | some e => exact h.edge_lt e he
  have hhist := length_pushHist b.histN c.hist ⟨t, iv⟩ h.hist_length
  unfold CrRegs.acceptTransition
  dsimp only
  split
  · exact { sps_range := h.sps_range, edge_lt := by rintro e ⟨⟩; exact imod_lt _ hsps,
            hist_length := hhist, uninitialized_hist := nofun }
  · exact { sps_range := h.sps_range, edge_lt := by rintro e ⟨⟩; exact hedge,
            hist_length := hhist, uninitialized_hist := nofun }

/-- A transition keeps the tracker consistent (41_clock_recovery.md R123). -/
theorem CrInv.transition (h : CrInv b c) (t : BitVec 32) : CrInv b (c.transition b.histN t).1 := by
  have htimed : CrInv b { c with lastT := t } := { h with }
  unfold CrRegs.transition
  split
  · dsimp only
    split
    · exact htimed.acceptTransition t _
    · exact htimed
  · exact { h with }

end

/-! ### Demodulator -/

section
variable {b : Build} {d : DmRegs}

/-- The zeroed demodulator is consistent (42_demodulator.md R141). -/
theorem DmInv.of_cleared (b : Build) (d : DmRegs) : DmInv b (d.cleared b.majW) where
  x1_range := ⟨by simp [DmRegs.cleared], by simp [DmRegs.cleared]⟩
  x2_range := ⟨by simp [DmRegs.cleared], by simp [DmRegs.cleared]⟩
  x3_range := ⟨by simp [DmRegs.cleared], by simp [DmRegs.cleared]⟩
  env_le := Nat.zero_le _
  hi_le := Nat.zero_le _
  lo_le := Nat.zero_le _
  win_length := List.length_replicate
  cnt_lt := by simp [DmRegs.cleared]

/-- The filter shifts the sample in (42_demodulator.md R144). -/
theorem DmInv.hpf (h : DmInv b d) {x : Int} (hx : SampleInv b x) : DmInv b (d.hpf b x) :=
  { h with x1_range := hx, x2_range := h.x1_range, x3_range := h.x2_range }

/-- The envelope stays at most the greatest magnitude of a filter output (42_demodulator.md R145, R152). -/
theorem DmInv.envelope (h : DmInv b d) : DmInv b (d.envelope b) :=
  { h with env_le := (approach_le_max _ _ _).trans (max_le h.env_le (natAbs_toInt_le d.y1)) }

/-- The high mark follows the envelope and never passes it (42_demodulator.md R146, R152). -/
theorem DmInv.highMark (h : DmInv b d) : DmInv b (d.highMark b) := by
  refine { h with hi_le := ?_ }
  dsimp only [DmRegs.highMark]
  split
  · exact (approach_le_max _ _ _).trans (max_le h.hi_le h.env_le)
  · next hle => exact (recede_le _ (not_lt.1 hle)).trans h.hi_le

/-- The low mark follows the envelope and never passes it (42_demodulator.md R147, R152). -/
theorem DmInv.lowMark (h : DmInv b d) : DmInv b (d.lowMark b) := by
  refine { h with lo_le := ?_ }
  dsimp only [DmRegs.lowMark]
  split
  · next hlt => exact (recede_le _ hlt.le).trans h.lo_le
  · exact (approach_le_max _ _ _).trans (max_le h.lo_le h.env_le)

theorem DmInv.measure (h : DmInv b d) {x : Int} (hx : SampleInv b x) : DmInv b (d.measure b x) :=
  (h.hpf hx).envelope.highMark.lowMark

/-- The glitch window keeps its length (42_demodulator.md R149). -/
theorem DmInv.window (h : DmInv b d) (hmaj : 1 ≤ b.majW) (inst : Bool) : DmInv b (d.window inst).1 := by
  have hlen : (d.win.drop 1 ++ [inst]).length = b.majW := by
    have := h.win_length
    simp only [List.length_append, List.length_drop, List.length_singleton]
    omega
  unfold DmRegs.window
  dsimp only
  split <;> exact { h with win_length := hlen }

end

/-! ### Modulator -/

section
variable {b : Build} {m : MdRegs}

/-- MD.CLEAR reaches a consistent generator from any with a configuration in range (43_modulator.md R173). -/
theorem MdInv.of_cleared (hsps : 2 ≤ m.sps ∧ m.sps ≤ 65535) (hhalf : m.half = m.sps / 2) : MdInv b m.cleared where
  sps_range := hsps
  half_eq := hhalf
  active_pos := nofun
  idle_pos _ := .inl rfl
  phase_lt := by simp [MdRegs.cleared]

/-- A loaded symbol starts at its first sample (43_modulator.md R179). -/
theorem MdInv.load (h : MdInv b m) (item : Nat) : MdInv b (m.load item) :=
  { h with
    active_pos := fun _ => Nat.lt_of_lt_of_le Nat.zero_lt_two h.sps_range.1
    idle_pos := nofun }

theorem MdRegs.manchesterSwitch_eq (m : MdRegs) :
    m.manchesterSwitch = { m with curInc := m.manchesterSwitch.curInc } := by
  unfold MdRegs.manchesterSwitch
  split <;> rfl

theorem MdInv.manchesterSwitch (h : MdInv b m) : MdInv b m.manchesterSwitch := by
  rw [MdRegs.manchesterSwitch_eq]
  exact { h with }

/-- A sample of a symbol in progress: the generator is idle again exactly past the last (43_modulator.md R179). -/
theorem MdInv.advance (h : MdInv b m) (hactive : m.active = true) : MdInv b (m.advance b) := by
  have hpos := h.active_pos hactive
  refine { sps_range := h.sps_range, half_eq := h.half_eq, active_pos := ?_, idle_pos := ?_,
           phase_lt := Nat.mod_lt _ (by positivity) }
  all_goals
    dsimp only [MdRegs.advance]
    split
  · exact nofun
  · exact fun _ => by omega
  · next hlast => exact fun _ => .inr hlast
  · rw [hactive]; exact nofun

end

/-! ### Frame codec -/

section
variable {b : Build} {f : FcRegs}

/-- FC.CLEAR (45_frame_codec.md R214). -/
theorem FcInv.cleared (h : FcInv b f) : FcInv b f.cleared :=
  { h with
    pos_le := Nat.zero_le _
    discard_pos := fun _ => rfl
    nbits_le := Nat.zero_le _
    ones_le := Nat.zero_le _ }

/-- A frame longer than the buffer (45_frame_codec.md R220). -/
theorem FcInv.oversize (h : FcInv b f) :
    FcInv b { f with pos := 0, rxCrc := 0xFFFF, inEsc := false, discard := true } :=
  { h with pos_le := Nat.zero_le _, discard_pos := fun _ => rfl }

/-- A byte stored in a frame that is not discarded (45_frame_codec.md R220). -/
theorem FcInv.store (h : FcInv b f) (hkept : f.discard = false) (hroom : f.pos < b.maxFrameLen) (v : BitVec 8)
    (crc : BitVec 16) :
    FcInv b { f with buf := Memory.write f.buf f.pos v, rxCrc := crc, pos := f.pos + 1 } :=
  { h with
    pos_le := hroom
    discard_pos := fun hd => absurd (hkept.symm.trans hd) nofun
    buf_wf := Memory.wf_write h.buf_wf _ _
    buf_bound := Memory.bound_write h.buf_bound hroom }

/-- A frame's end (45_frame_codec.md R218). -/
theorem FcInv.endFrame (h : FcInv b f) : FcInv b f.endFrame :=
  { h with pos_le := Nat.zero_le _, discard_pos := fun _ => rfl }

end

/-! ### Updates of the whole state -/

section
variable {s : State} (h : Invariant s)
include h

theorem Invariant.setCfg {c : CfgRegs} (hc : CfgInv c) : Invariant (s.setCfg c) := { h with cfg := hc }

theorem Invariant.setTxq {q : QueueRegs} (hq : QueueInv s.build.txqN q) (hi : ItemInv s.build q) :
    Invariant (s.setTxq q) := { h with txq := hq, txq_items := hi }

theorem Invariant.setRxq {q : QueueRegs} (hq : QueueInv s.build.rxqN q) (hi : ItemInv s.build q) :
    Invariant (s.setRxq q) := { h with rxq := hq, rxq_items := hi }

theorem Invariant.setCr {c : CrRegs} (hc : CrInv s.build c) : Invariant (s.setCr c) := { h with cr := hc }

theorem Invariant.setDm {d : DmRegs} (hd : DmInv s.build d) : Invariant (s.setDm d) := { h with dm := hd }

theorem Invariant.setMd {m : MdRegs} (hm : MdInv s.build m) : Invariant (s.setMd m) := { h with md := hm }

theorem Invariant.setCrcAcc (c : BitVec 16) : Invariant (s.setCrcAcc c) := { h with }

theorem Invariant.setFc {f : FcRegs} (hf : FcInv s.build f) : Invariant (s.setFc f) := { h with fc := hf }

theorem Invariant.setFac {f : FacRegs} (hf : FacInv s.build f) : Invariant (s.setFac f) := { h with fac := hf }

theorem Invariant.event (e : Event) : Invariant (s.event e) := { h with }

theorem Invariant.eventIf (c : Bool) (e : Event) : Invariant (s.eventIf c e) := { h with }

theorem Invariant.emit (os : List (BitVec 8)) : Invariant (s.emit os) := { h with }

theorem Invariant.setCfgErr (e : Bool) : Invariant (s.setCfgErr e) := { h with fac := { h.fac with } }

theorem Invariant.clearTxq : Invariant s.clearTxq := h.setTxq h.txq.cleared h.txq_items

theorem Invariant.clearRxq : Invariant s.clearRxq := h.setRxq h.rxq.cleared h.rxq_items

theorem Invariant.reply (r : Resp) : Invariant (s.reply r) := { h with }

theorem Invariant.accept (p : Port) (order : List Port) : Invariant (s.accept p order) := { h with }

end

theorem cfgInv_reset : CfgInv CfgRegs.reset := ⟨by decide, by decide, by decide, by decide, by decide⟩

/-- The reset values are consistent in every build that 00_scope.md R9 allows (70_reset_and_hazards.md R330). -/
theorem invariant_resetOf {b : Build} (hb : b.valid = true) : Invariant (State.resetOf b) := by
  obtain ⟨htxq, hrxq, -⟩ := (build_valid_iff b).1 hb
  have hqueue (n : Nat) (hn : 2 ≤ n) : QueueInv n QueueRegs.reset :=
    ⟨Nat.zero_lt_of_lt hn, Nat.zero_lt_of_lt hn, Memory.wf_nil, nofun⟩
  exact
    { build := hb
      cfg := cfgInv_reset
      txq := hqueue _ htxq
      rxq := hqueue _ hrxq
      txq_items := nofun
      rxq_items := nofun
      cr := CrInv.of_cleared (c := CrRegs.reset) (by decide)
      dm := DmInv.of_cleared b (DmRegs.reset b.majW)
      md := MdInv.of_cleared (m := MdRegs.reset) (by decide) (by decide)
      fc := ⟨Nat.zero_le _, nofun, Nat.zero_le _, Nat.zero_le _, Memory.wf_nil, nofun⟩
      fac := ⟨Nat.zero_le _, Nat.zero_le _, fun _ => rfl, Memory.wf_nil, nofun, Memory.wf_nil, nofun⟩ }

/-! ### Operations -/

/-- What `cfgValid()` promises about `CFG0 / CFG1` is the range of every unit's samples per symbol (10_state.md R23). -/
theorem CfgRegs.sps_range {c : CfgRegs} (h : c.valid = true) : 2 ≤ c.sps ∧ c.sps ≤ 65535 :=
  ((CfgRegs.valid_iff c).1 h).2.2

section
variable {s : State} (h : Invariant s)
include h

theorem invariant_crClear : Invariant (crClear s).1 := h.setCr (CrInv.of_cleared h.cr.sps_range)

theorem invariant_crSetup : Invariant (crSetup s).1 := by
  by_cases hv : s.cfg.valid = true
  · rw [crSetup_valid hv]
    exact (h.setCr (CrInv.of_cleared (c := s.cr.configure s.cfg) (CfgRegs.sps_range hv))).setCfgErr false
  · rw [crSetup_invalid hv]
    exact h.setCfgErr true

theorem invariant_crTransition (t : BitVec 32) : Invariant (crTransition t s).1 :=
  (h.setCr (h.cr.transition t)).eventIf _ _

theorem invariant_dmClear : Invariant (dmClear s).1 :=
  (invariant_crClear (h.setDm (DmInv.of_cleared s.build s.dm))).clearRxq

theorem invariant_dmSetup : Invariant (dmSetup s).1 := by
  by_cases hv : s.cfg.valid = true
  · rw [dmSetup_valid hv]
    have hman : Invariant (s.setDm { s.dm with man := s.cfg.manchester }) := h.setDm { h.dm with }
    exact (invariant_dmClear (invariant_crSetup hman)).setCfgErr false
  · rw [dmSetup_invalid hv]
    exact h.setCfgErr true

theorem invariant_dmCount : Invariant (dmCount s) := by
  have hcounted : Invariant (s.setDm { s.dm with cnt := nextCount s.build.cntBits s.dm.cnt }) :=
    h.setDm { h.dm with cnt_lt := Nat.mod_lt _ (by positivity) }
  unfold dmCount
  dsimp only
  split
  · exact (invariant_crClear hcounted).event _
  · exact hcounted

/-- A symbol put into RXQ. -/
theorem Invariant.pushRxq (v : Nat) : Invariant (s.setRxq (s.rxq.push s.build.rxqN (Build.item s.build v))) :=
  h.setRxq (h.rxq.push _) (ItemInv.push h.rxq_items _ _)

/-- A symbol put into TXQ. -/
theorem Invariant.pushTxq (v : Nat) : Invariant (s.setTxq (s.txq.push s.build.txqN (Build.item s.build v))) :=
  h.setTxq (h.txq.push _) (ItemInv.push h.txq_items _ _)

/-- The head of RXQ taken. -/
theorem Invariant.popRxq : Invariant (s.setRxq (s.rxq.pop s.build.rxqN)) := h.setRxq h.rxq.pop h.rxq_items

/-- The head of TXQ taken. -/
theorem Invariant.popTxq : Invariant (s.setTxq (s.txq.pop s.build.txqN)) := h.setTxq h.txq.pop h.txq_items

theorem invariant_dmOnTransition : Invariant (dmOnTransition s).1 := by
  have htracked := invariant_crTransition h (zext32 s.dm.cnt)
  unfold dmOnTransition
  dsimp only
  split
  · split
    · exact htracked.pushRxq _
    · exact htracked.event _
  · exact htracked

theorem Invariant.sampled {x : Int} (hx : SampleInv s.build x) : Invariant (s.sampled x) := by
  have hbuild : (dmCount s).build = s.build := by rw [dmCount_frame]
  have hcounted := invariant_dmCount h
  obtain ⟨-, -, -, hmaj, -⟩ := (build_valid_iff _).1 hcounted.build
  exact hcounted.setDm ((hcounted.dm.measure (hbuild ▸ hx)).window hmaj _)

theorem invariant_dmProcess {x : Int} (hx : SampleInv s.build x) : Invariant (dmProcess x s).1 := by
  rw [dmProcess_eq]
  split
  · exact invariant_dmOnTransition (h.sampled hx)
  · exact h.sampled hx

theorem invariant_mdClear : Invariant (mdClear s).1 :=
  (h.setMd (MdInv.of_cleared h.md.sps_range h.md.half_eq)).clearTxq

theorem invariant_mdSetup : Invariant (mdSetup s).1 := by
  by_cases hv : s.cfg.valid = true
  · rw [mdSetup_valid hv]
    have hmd : MdInv s.build (s.md.configure s.cfg).cleared := MdInv.of_cleared (CfgRegs.sps_range hv) rfl
    exact ((h.setMd hmd).setCfgErr false).clearTxq
  · rw [mdSetup_invalid hv]
    exact h.setCfgErr true

theorem invariant_mdSetPreamble (n : BitVec 16) : Invariant (mdSetPreamble n s).1 :=
  h.setCfg { h.cfg with preamble_reserved := setWidth_reserved n }

theorem invariant_mdSetPostamble (n : BitVec 16) : Invariant (mdSetPostamble n s).1 :=
  h.setCfg { h.cfg with postamble_reserved := setWidth_reserved n }

theorem invariant_mdAddSymbol (b : Bool) : Invariant (mdAddSymbol b s).1 := by
  rcases mdAddSymbol_cases b s with ⟨-, hput⟩ | ⟨-, hfull⟩
  · rw [hput]
    exact h.pushTxq _
  · rw [hfull]
    exact (h.setMd (m := { s.md with txOverflow := true }) { h.md with }).event _

omit h in
theorem invariant_mdAddSymbols (bs : List Bool) {s : State} (h : Invariant s) : Invariant (mdAddSymbols bs s).1 := by
  induction bs generalizing s with
  | nil => exact h
  | cons b bs ih => exact ih (invariant_mdAddSymbol h b)

theorem invariant_mdAddPreamble : Invariant (mdAddPreamble s).1 := invariant_mdAddSymbols _ h

theorem invariant_mdAddPostamble : Invariant (mdAddPostamble s).1 := invariant_mdAddSymbols _ h

theorem invariant_mdEmitSample (hactive : s.md.active = true) : Invariant (mdEmitSample s).1 := by
  have hswitched : s.md.manchesterSwitch.active = true := by rw [MdRegs.manchesterSwitch_eq]; exact hactive
  exact h.setMd (h.md.manchesterSwitch.advance hswitched)

theorem invariant_mdGetSample : Invariant (mdGetSample s).1 := by
  rcases mdGetSample_cases s with ⟨hactive, hget⟩ | ⟨-, -, hget⟩ | ⟨-, -, hget⟩ <;> rw [hget]
  · exact invariant_mdEmitSample h hactive
  · exact invariant_mdEmitSample (h.popTxq.setMd (h.md.load _)) rfl
  · exact h

theorem invariant_fcClear : Invariant (fcClear s).1 := h.setFc h.fc.cleared

theorem invariant_fcSetup : Invariant (fcSetup s).1 :=
  invariant_fcClear (h.setFc (f := { s.fc with crcBE := s.cfg.crcBigEndian }) { h.fc with })

/-- The stuffing counter between two sends. -/
theorem Invariant.resetOnes : Invariant (s.setFc { s.fc with ones := 0 }) :=
  h.setFc { h.fc with ones_le := Nat.zero_le _ }

theorem invariant_fcSendFrameBytes : Invariant (fcSendFrameBytes s).1 := h.resetOnes.emit _

theorem invariant_fcSendFrameBits : Invariant (fcSendFrameBits s).1 := invariant_mdAddSymbols _ h.resetOnes

/-- The consumer's message fits its buffer (46_facade.md R263). -/
theorem invariant_consume {n : Nat} (hn : n ≤ s.build.pendLen) : Invariant (consume n s).1 := by
  rcases consume_cases n s with ⟨-, hdrop⟩ | ⟨-, htake⟩
  · rw [hdrop]
    exact h.event _
  · rw [htake]
    exact h.setFac
      { h.fac with
        pendLen_le := hn
        nothing_pending := nofun
        pend_wf := Memory.wf_copy _ _ h.fac.pend_wf
        pend_bound := Memory.bound_copy _ h.fac.pend_bound hn }

theorem invariant_fcBoundary : Invariant (fcBoundary s).1 := by
  obtain ⟨-, -, -, -, -, -, hpend, -⟩ := (build_valid_iff _).1 h.build
  have hfits : s.fc.pos - 2 ≤ (s.event .frameOk).build.pendLen := by
    have := h.fc.pos_le
    rw [State.event_build]
    omega
  have hconsumed := invariant_consume (h.event .frameOk) hfits
  unfold fcBoundary
  split
  · split
    · exact hconsumed.setFc hconsumed.fc.endFrame
    · exact (h.event _).setFc h.fc.endFrame
  · exact h.setFc h.fc.endFrame

theorem invariant_fcStore (hkept : s.fc.discard = false) (b : BitVec 8) : Invariant (fcStore b s).1 := by
  unfold fcStore
  split
  · exact (h.setFc h.fc.oversize).event _
  · next hroom => exact h.setFc (h.fc.store hkept (Nat.lt_of_le_of_ne h.fc.pos_le hroom) b _)

theorem invariant_fcRxByte (b : BitVec 8) : Invariant (fcRxByte b s).1 := by
  have hescape (e : Bool) : Invariant (s.setFc { s.fc with inEsc := e }) := h.setFc { h.fc with }
  unfold fcRxByte
  split
  · exact invariant_fcBoundary h
  · split
    · exact h
    · next hkept =>
      have hkept : s.fc.discard = false := Bool.eq_false_iff.2 hkept
      split
      · exact hescape _
      · split
        · exact invariant_fcStore (hescape false) hkept _
        · exact invariant_fcStore h hkept _

theorem Invariant.setCollector (acc : BitVec 8) {nbits : Nat} (hn : nbits ≤ 7) :
    Invariant (s.setCollector acc nbits) := h.setFc { h.fc with nbits_le := hn }

theorem invariant_fcRxBit (bit : Bool) : Invariant (fcRxBit bit s).1 := by
  have hshifted : Invariant (s.shiftIn bit) := h.setFc { h.fc with }
  rw [fcRxBit_eq]
  split_ifs
  · exact (invariant_fcRxByte hshifted _).setCollector _ (Nat.zero_le _)
  · exact hshifted
  · exact (invariant_fcRxByte hshifted _).setCollector _ (Nat.zero_le _)
  · have := h.fc.nbits_le
    exact hshifted.setCollector _ (by omega)

omit h in
theorem invariant_facDrain (k : Nat) {s : State} (f : DecFlags) (h : Invariant s) : Invariant (facDrain k s f).1 := by
  induction k generalizing s f with
  | zero => exact h
  | succ k ih =>
    unfold facDrain
    split
    · exact ih _ (invariant_fcRxBit h.popRxq _)
    · exact h

theorem invariant_facSetup : Invariant (facSetup s).1 := by
  by_cases hv : s.cfg.valid = true
  · rw [facSetup_valid hv]
    have hunits := invariant_fcSetup (invariant_dmSetup (invariant_mdSetup h))
    exact hunits.setFac
      { hunits.fac with
        txLen_le := Nat.zero_le _
        pendLen_le := Nat.zero_le _
        nothing_pending := fun _ => rfl }
  · rw [facSetup_invalid hv]
    exact h.setCfgErr true

theorem invariant_facEncodeMessage : Invariant (facEncodeMessage s).1 := by
  dsimp only [facEncodeMessage]
  exact invariant_mdAddPostamble (invariant_fcSendFrameBits (invariant_mdAddPreamble (invariant_mdClear h)))

theorem invariant_facDecodeProcessSample (x : BitVec 32) :
    Invariant (facDecodeProcessSample (operandSample s.build x) s).1 :=
  invariant_facDrain _ _ (invariant_dmProcess h (operandSample_range h.build x))

theorem invariant_facDecodeClearMessage : Invariant (facDecodeClearMessage s).1 :=
  h.setFac { h.fac with pendLen_le := Nat.zero_le _, nothing_pending := fun _ => rfl }

theorem invariant_facTxbufPush (b : BitVec 8) : Invariant (facTxbufPush b s).1 := by
  unfold facTxbufPush
  split
  · exact h
  · next hroom =>
    have hlt : s.fac.txLen < s.build.txbufLen := Nat.lt_of_le_of_ne h.fac.txLen_le hroom
    exact h.setFac
      { h.fac with
        txLen_le := hlt
        txbuf_wf := Memory.wf_write h.fac.txbuf_wf _ _
        txbuf_bound := Memory.bound_write h.fac.txbuf_bound hlt }

theorem invariant_facRxmsgRead (i : BitVec 32) : Invariant (facRxmsgRead i s).1 := by
  unfold facRxmsgRead
  split <;> exact h

omit h in
/-- A masked write leaves the reserved bits zero (10_state.md R22). -/
theorem CfgInv.write {c : CfgRegs} (h : CfgInv c) {k : Nat} (hk : k < 9) (v : BitVec 32) :
    CfgInv (c.write k (v &&& cfgMask k)) := by
  interval_cases k
  · exact { h with }
  · exact { h with }
  · exact { h with }
  · exact { h with }
  · exact { h with mode_reserved := and_mask_eq_zero v (by decide) }
  · exact { h with preamble_reserved := and_mask_eq_zero v (by decide) }
  · exact { h with postamble_reserved := and_mask_eq_zero v (by decide) }
  · exact { h with crTol_reserved := and_mask_eq_zero v (by decide) }
  · exact { h with crCw_reserved := and_mask_eq_zero v (by decide) }

theorem invariant_facCfgWrite (k : BitVec 8) (v : BitVec 32) : Invariant (facCfgWrite k v s).1 := by
  by_cases hk : k.toNat < 9
  · rw [facCfgWrite_legal hk]
    exact h.setCfg (h.cfg.write hk v)
  · rw [facCfgWrite_illegal (by omega)]
    exact h

theorem invariant_facCfgRead (k : BitVec 8) : Invariant (facCfgRead k s).1 := by
  unfold facCfgRead
  split_ifs <;> exact h

/-! ### The queue commands -/

theorem Invariant.setQueue (i : QueueId) {q : QueueRegs} (hq : QueueInv (s.slots i) q) (hi : ItemInv s.build q) :
    Invariant (s.setQueue i q) := by
  cases i with
  | tx => exact h.setTxq hq hi
  | rx => exact h.setRxq hq hi

theorem Invariant.queue (i : QueueId) : QueueInv (s.slots i) (s.queue i) := by
  cases i with
  | tx => exact h.txq
  | rx => exact h.rxq

theorem Invariant.queue_items (i : QueueId) : ItemInv s.build (s.queue i) := by
  cases i with
  | tx => exact h.txq_items
  | rx => exact h.rxq_items

theorem invariant_queueClear (i : QueueId) : Invariant (queueClear i s).1 :=
  h.setQueue i (h.queue i).cleared (h.queue_items i)

theorem invariant_queueNthFromPut (i : QueueId) (n : BitVec 32) : Invariant (queueNthFromPut i n s).1 := by
  unfold queueNthFromPut
  split <;> exact h

theorem invariant_queueNthFromGet (i : QueueId) (n : BitVec 32) : Invariant (queueNthFromGet i n s).1 := by
  unfold queueNthFromGet
  split <;> exact h

end

/-! ### Commands -/

/-- Whatever a command's outcome is, a next state has the invariant. -/
def KeepsInvariant (o : Host.Outcome State Fault Refusal) : Prop := ∀ t, o = .next t → Invariant t

/-- A response changes nothing the invariant speaks of. -/
theorem keepsInvariant_finish {r : State × Resp} (h : Invariant r.1) : KeepsInvariant (finish r) := by
  rintro t ⟨⟩
  exact h.reply r.2

section
variable {s : State} (h : Invariant s)
include h

theorem keepsInvariant_queuePut (i : QueueId) (d : Data) :
    KeepsInvariant (queuePut i (operandItem s.build d) s) := by
  intro t ht
  obtain ⟨-, rfl⟩ := queuePut_next ht
  exact (h.setQueue i ((h.queue i).push _) (ItemInv.push (h.queue_items i) _ _)).reply _

theorem keepsInvariant_queueGet (i : QueueId) : KeepsInvariant (queueGet i s) := by
  intro t ht
  obtain ⟨-, rfl⟩ := queueGet_next ht
  exact (h.setQueue i (h.queue i).pop (h.queue_items i)).reply _

/-- Every command keeps the invariant (10_state.md R35). -/
theorem keepsInvariant_exec (i : Instr) : KeepsInvariant (exec i s) := by
  cases i with
  | facNop => exact keepsInvariant_finish h
  | facSetup => exact keepsInvariant_finish (invariant_facSetup h)
  | facEncodeMessage => exact keepsInvariant_finish (invariant_facEncodeMessage h)
  | facEncodeGetSample => exact keepsInvariant_finish (invariant_mdGetSample h)
  | facDecodeProcessSample x => exact keepsInvariant_finish (invariant_facDecodeProcessSample h x)
  | facDecodeGetMessage => exact keepsInvariant_finish h
  | facDecodeClearMessage => exact keepsInvariant_finish (invariant_facDecodeClearMessage h)
  | facTxbufClear => exact keepsInvariant_finish (h.setFac { h.fac with txLen_le := Nat.zero_le _ })
  | facTxbufPush b => exact keepsInvariant_finish (invariant_facTxbufPush h b)
  | facRxmsgRead i => exact keepsInvariant_finish (invariant_facRxmsgRead h i)
  | facCfgWrite k v => exact keepsInvariant_finish (invariant_facCfgWrite h k v)
  | facCfgRead k => exact keepsInvariant_finish (invariant_facCfgRead h k)
  | mdSetup => exact keepsInvariant_finish (invariant_mdSetup h)
  | mdClear => exact keepsInvariant_finish (invariant_mdClear h)
  | mdSetPreamble n => exact keepsInvariant_finish (invariant_mdSetPreamble h n)
  | mdSetPostamble n => exact keepsInvariant_finish (invariant_mdSetPostamble h n)
  | mdAddPreamble => exact keepsInvariant_finish (invariant_mdAddPreamble h)
  | mdAddPostamble => exact keepsInvariant_finish (invariant_mdAddPostamble h)
  | mdAddSymbol b => exact keepsInvariant_finish (invariant_mdAddSymbol h b)
  | mdGetSample => exact keepsInvariant_finish (invariant_mdGetSample h)
  | dmSetup => exact keepsInvariant_finish (invariant_dmSetup h)
  | dmClear => exact keepsInvariant_finish (invariant_dmClear h)
  | dmProcessSample x =>
    exact keepsInvariant_finish (invariant_dmProcess h (operandSample_range h.build x))
  | crSetup => exact keepsInvariant_finish (invariant_crSetup h)
  | crClear => exact keepsInvariant_finish (invariant_crClear h)
  | crTransition t => exact keepsInvariant_finish (invariant_crTransition h t)
  | fcSetup => exact keepsInvariant_finish (invariant_fcSetup h)
  | fcClear => exact keepsInvariant_finish (invariant_fcClear h)
  | fcSendFrameBytes => exact keepsInvariant_finish (invariant_fcSendFrameBytes h)
  | fcSendFrameBits => exact keepsInvariant_finish (invariant_fcSendFrameBits h)
  | fcRxByte b => exact keepsInvariant_finish (invariant_fcRxByte h b)
  | fcRxBit bit => exact keepsInvariant_finish (invariant_fcRxBit h bit)
  | crcInit => exact keepsInvariant_finish (h.setCrcAcc _)
  | crcUpdate b => exact keepsInvariant_finish (h.setCrcAcc _)
  | crcRead => exact keepsInvariant_finish h
  | crcTableRead i => exact keepsInvariant_finish h
  | txqCanPut => exact keepsInvariant_finish h
  | txqPut d => exact keepsInvariant_queuePut h .tx d
  | txqCanGet => exact keepsInvariant_finish h
  | txqGet => exact keepsInvariant_queueGet h .tx
  | txqClear => exact keepsInvariant_finish (invariant_queueClear h .tx)
  | txqCount => exact keepsInvariant_finish h
  | txqNthFromPut n => exact keepsInvariant_finish (invariant_queueNthFromPut h .tx n)
  | txqNthFromGet n => exact keepsInvariant_finish (invariant_queueNthFromGet h .tx n)
  | rxqCanPut => exact keepsInvariant_finish h
  | rxqPut d => exact keepsInvariant_queuePut h .rx d
  | rxqCanGet => exact keepsInvariant_finish h
  | rxqGet => exact keepsInvariant_queueGet h .rx
  | rxqClear => exact keepsInvariant_finish (invariant_queueClear h .rx)
  | rxqCount => exact keepsInvariant_finish h
  | rxqNthFromPut n => exact keepsInvariant_finish (invariant_queueNthFromPut h .rx n)
  | rxqNthFromGet n => exact keepsInvariant_finish (invariant_queueNthFromGet h .rx n)

/-- The reset input leads to the reset state of the same build (70_reset_and_hazards.md R331). -/
theorem Invariant.applyReset : Invariant s.applyReset := { invariant_resetOf h.build with }

theorem Invariant.abandon : Invariant s.abandon := by
  unfold State.abandon
  split
  · exact h
  · exact h.accept _ _

end

end Sys2Proof.Machine

namespace Sys2Proof.Proofs

open Sys2Proof.Machine

/-- Settles O9: the default build is one that 00_scope.md R9 allows. -/
theorem resetStateIsConsistent : Obligations.ResetStateIsConsistent :=
  invariant_resetOf (by decide)

/-- Settles O10, by what a step can answer: a reset, a wait, an illegal word, or a command. -/
theorem everyStepKeepsTheInvariant : Obligations.EveryStepKeepsTheInvariant := by
  intro s t h hstep
  rcases step_cases s with ⟨-, hs⟩ | ⟨-, -, hs⟩ | ⟨-, -, hs⟩ | ⟨-, -, -, hs⟩ | ⟨p, order, -, -, -, hs⟩ <;>
    rw [hs] at hstep
  · cases hstep
  · cases hstep
    exact h.applyReset
  · cases hstep
    exact h.abandon.applyReset
  · cases hstep
    exact h
  · have haccepted := h.accept p order
    rcases runCommand_cases (s.accept p order) with ⟨i, -, hrun⟩ | ⟨e, -, hrun⟩ <;> rw [hrun] at hstep
    · exact keepsInvariant_exec haccepted i t hstep
    · cases hstep
      exact haccepted.reply _

end Sys2Proof.Proofs
end

section
/-! CERTIFICATE. Stale memory contents are never observable (10_state.md R34). The relation of R34 is taken apart by register
file, each update of the state keeps it, and each operation of a unit, run on two states that differ only in stale memory,
gives two such states and one answer. -/

namespace Sys2Proof.Machine

/-! ### The relation by register file -/

/-- Two queues with the same cursors and the same contents. -/
structure QueueAlike (n : Nat) (q q' : QueueRegs) : Prop where
  put : q'.put = q.put
  get : q'.get = q.get
  items : q'.items n = q.items n

/-- Two frame codecs that differ at most in `FC.buf` at or past `FC.pos`. -/
structure FcAlike (f f' : FcRegs) : Prop where
  rest : f' = { f with buf := f'.buf }
  buf : Memory.firstN f'.buf f.pos = Memory.firstN f.buf f.pos

/-- Two facades that differ at most in staged bytes at or past `FAC.txLen` and message bytes at or past `FAC.pendLen`. -/
structure FacAlike (f f' : FacRegs) : Prop where
  rest : f' = { f with txbuf := f'.txbuf, pend := f'.pend }
  txbuf : Memory.firstN f'.txbuf f.txLen = Memory.firstN f.txbuf f.txLen
  pend : Memory.firstN f'.pend f.pendLen = Memory.firstN f.pend f.pendLen

theorem QueueAlike.of_cleared (n : Nat) (q q' : QueueRegs) : QueueAlike n q.cleared q'.cleared :=
  ⟨rfl, rfl, by rw [QueueRegs.items_cleared, QueueRegs.items_cleared]⟩

section
variable {n : Nat} {q q' : QueueRegs} (h : QueueAlike n q q')
include h

theorem QueueAlike.eq_slot : q' = { q with slot := q'.slot } := by
  rw [← h.put, ← h.get]

theorem QueueAlike.canPut : q'.canPut n = q.canPut n := by
  simp [QueueRegs.canPut, h.put, h.get]

theorem QueueAlike.canGet : q'.canGet = q.canGet := by
  simp [QueueRegs.canGet, h.put, h.get]

theorem QueueAlike.count : q'.count n = q.count n := by
  simp [QueueRegs.count, h.put, h.get]

/-- The same item put into both. -/
theorem QueueAlike.push (hq : QueueInv n q) (hq' : QueueInv n q') (hc : q.canPut n = true) (v : Nat) :
    QueueAlike n (q.push n v) (q'.push n v) where
  put := congrArg (fun p => (p + 1) % n) h.put
  get := h.get
  items := by rw [QueueRegs.items_push hq hc, QueueRegs.items_push hq' (h.canPut.trans hc), h.items]

/-- GET answers the same item on both and leaves the same contents. -/
theorem QueueAlike.head_pop (hq : QueueInv n q) (hq' : QueueInv n q') (hc : q.canGet = true) :
    q'.head = q.head ∧ QueueAlike n (q.pop n) (q'.pop n) := by
  have hitems := h.items
  rw [QueueRegs.items_pop hq hc, QueueRegs.items_pop hq' (h.canGet.trans hc)] at hitems
  obtain ⟨hhead, htail⟩ := List.cons.inj hitems
  exact ⟨hhead, h.put, congrArg (fun g => (g + 1) % n) h.get, htail⟩

end

section
variable {f f' : FcRegs} (h : FcAlike f f')
include h

theorem FcAlike.pos : f'.pos = f.pos := by rw [h.rest]
theorem FcAlike.crcBE : f'.crcBE = f.crcBE := by rw [h.rest]
theorem FcAlike.rxCrc : f'.rxCrc = f.rxCrc := by rw [h.rest]
theorem FcAlike.inEsc : f'.inEsc = f.inEsc := by rw [h.rest]
theorem FcAlike.discard : f'.discard = f.discard := by rw [h.rest]
theorem FcAlike.sr : f'.sr = f.sr := by rw [h.rest]
theorem FcAlike.acc : f'.acc = f.acc := by rw [h.rest]
theorem FcAlike.nbits : f'.nbits = f.nbits := by rw [h.rest]

/-- A frame byte below `FC.pos` reads the same. -/
theorem FcAlike.read {i : Nat} (hi : i < f.pos) : Memory.read f'.buf i = Memory.read f.buf i :=
  (Memory.firstN_eq_iff _ _ _).1 h.buf i hi

/-- And still does after the next byte is stored. -/
theorem FcAlike.read_write {i : Nat} (hi : i < f.pos) (v : BitVec 8) :
    Memory.read (Memory.write f'.buf f.pos v) i = Memory.read (Memory.write f.buf f.pos v) i := by
  rw [Memory.read_write_other _ _ hi.ne, Memory.read_write_other _ _ hi.ne, h.read hi]

/-- The received CRC lies below `FC.pos` (45_frame_codec.md R218). -/
theorem FcAlike.receivedCrc (hpos : 2 ≤ f.pos) : f'.receivedCrc = f.receivedCrc := by
  simp only [FcRegs.receivedCrc, h.pos, h.crcBE, h.read (show f.pos - 2 < f.pos by omega),
    h.read (show f.pos - 1 < f.pos by omega)]

/-- An update that does not touch `FC.buf` and makes no more of it live. -/
theorem FcAlike.update (u : FcRegs → FcRegs) (hu : ∀ buf, u { f with buf := buf } = { u f with buf := buf })
    (hpos : (u f).pos ≤ f.pos) : FcAlike (u f) (u f') := by
  have hbuf : (u f).buf = f.buf := (congrArg FcRegs.buf (hu f.buf) :)
  have hrest : u f' = { u f with buf := f'.buf } := by rw [h.rest, hu]
  rw [hrest]
  exact ⟨rfl, hbuf.symm ▸ Memory.firstN_eq_of_le hpos h.buf⟩

/-- The same byte stored at the end of both frames (45_frame_codec.md R220). -/
theorem FcAlike.store (hwf : Memory.wf f.buf = true) (hwf' : Memory.wf f'.buf = true) (v : BitVec 8) (crc : BitVec 16) :
    FcAlike { f with buf := Memory.write f.buf f.pos v, rxCrc := crc, pos := f.pos + 1 }
      { f' with buf := Memory.write f'.buf f.pos v, rxCrc := crc, pos := f.pos + 1 } where
  rest := congrArg (fun g : FcRegs =>
    { g with buf := Memory.write f'.buf f.pos v, rxCrc := crc, pos := f.pos + 1 }) h.rest
  buf := by rw [Memory.firstN_write_succ hwf, Memory.firstN_write_succ hwf', h.buf]

end

section
variable {f f' : FacRegs} (h : FacAlike f f')
include h

theorem FacAlike.txLen : f'.txLen = f.txLen := by rw [h.rest]
theorem FacAlike.pendValid : f'.pendValid = f.pendValid := by rw [h.rest]
theorem FacAlike.pendLen : f'.pendLen = f.pendLen := by rw [h.rest]
theorem FacAlike.cfgErr : f'.cfgErr = f.cfgErr := by rw [h.rest]

/-- A message byte below `FAC.pendLen` reads the same. -/
theorem FacAlike.read {i : Nat} (hi : i < f.pendLen) : Memory.read f'.pend i = Memory.read f.pend i :=
  (Memory.firstN_eq_iff _ _ _).1 h.pend i hi

/-- An update that touches neither message memory and makes no more of them live. -/
theorem FacAlike.update (u : FacRegs → FacRegs)
    (hu : ∀ txbuf pend, u { f with txbuf := txbuf, pend := pend } = { u f with txbuf := txbuf, pend := pend })
    (htx : (u f).txLen ≤ f.txLen) (hpend : (u f).pendLen ≤ f.pendLen) : FacAlike (u f) (u f') := by
  have htxbuf : (u f).txbuf = f.txbuf := (congrArg FacRegs.txbuf (hu f.txbuf f.pend) :)
  have hpendbuf : (u f).pend = f.pend := (congrArg FacRegs.pend (hu f.txbuf f.pend) :)
  have hrest : u f' = { u f with txbuf := f'.txbuf, pend := f'.pend } := by rw [h.rest, hu]
  rw [hrest]
  exact ⟨rfl, htxbuf.symm ▸ Memory.firstN_eq_of_le htx h.txbuf, hpendbuf.symm ▸ Memory.firstN_eq_of_le hpend h.pend⟩

/-- The same byte staged in both (46_facade.md R259). -/
theorem FacAlike.stage (hwf : Memory.wf f.txbuf = true) (hwf' : Memory.wf f'.txbuf = true) (v : BitVec 8) :
    FacAlike { f with txbuf := Memory.write f.txbuf f.txLen v, txLen := f.txLen + 1 }
      { f' with txbuf := Memory.write f'.txbuf f.txLen v, txLen := f.txLen + 1 } where
  rest := congrArg (fun g : FacRegs =>
    { g with txbuf := Memory.write f'.txbuf f.txLen v, txLen := f.txLen + 1 }) h.rest
  txbuf := by rw [Memory.firstN_write_succ hwf, Memory.firstN_write_succ hwf', h.txbuf]
  pend := h.pend

/-- A message copied from two frame buffers that agree on it (46_facade.md R263). -/
theorem FacAlike.deliver (hwf : Memory.wf f.pend = true) (hwf' : Memory.wf f'.pend = true) {buf buf' : List Host.Cell}
    {n : Nat} (hbuf : Memory.firstN buf' n = Memory.firstN buf n) :
    FacAlike { f with pend := Memory.copy buf n f.pend, pendLen := n, pendValid := true }
      { f' with pend := Memory.copy buf' n f'.pend, pendLen := n, pendValid := true } where
  rest := congrArg (fun g : FacRegs =>
    { g with pend := Memory.copy buf' n f'.pend, pendLen := n, pendValid := true }) h.rest
  txbuf := h.txbuf
  pend := by rw [Memory.firstN_copy _ _ hwf, Memory.firstN_copy _ _ hwf', hbuf]

end

/-! ### The relation and the updates of the whole state -/

section
variable {s s' : State} (h : LiveEq s s')
include h

theorem LiveEq.build : s'.build = s.build := by rw [h.rest]
theorem LiveEq.cfg : s'.cfg = s.cfg := by rw [h.rest]
theorem LiveEq.cr : s'.cr = s.cr := by rw [h.rest]
theorem LiveEq.dm : s'.dm = s.dm := by rw [h.rest]
theorem LiveEq.md : s'.md = s.md := by rw [h.rest]
theorem LiveEq.crcAcc : s'.crcAcc = s.crcAcc := by rw [h.rest]
theorem LiveEq.serving : s'.serving = s.serving := by rw [h.rest]
theorem LiveEq.cmdReg : s'.cmdReg = s.cmdReg := by rw [h.rest]

theorem LiveEq.txqAlike : QueueAlike s.build.txqN s.txq s'.txq :=
  ⟨congrArg (fun t => t.txq.put) h.rest, congrArg (fun t => t.txq.get) h.rest, h.txq⟩

theorem LiveEq.rxqAlike : QueueAlike s.build.rxqN s.rxq s'.rxq :=
  ⟨congrArg (fun t => t.rxq.put) h.rest, congrArg (fun t => t.rxq.get) h.rest, h.rxq⟩

theorem LiveEq.fcAlike : FcAlike s.fc s'.fc := ⟨congrArg (fun t => t.fc) h.rest, h.buf⟩

theorem LiveEq.facAlike : FacAlike s.fac s'.fac := ⟨congrArg (fun t => t.fac) h.rest, h.txbuf, h.pend⟩

theorem LiveEq.setCfg (c : CfgRegs) : LiveEq (s.setCfg c) (s'.setCfg c) :=
  { h with rest := congrArg (State.setCfg · c) h.rest }

theorem LiveEq.setCr (c : CrRegs) : LiveEq (s.setCr c) (s'.setCr c) :=
  { h with rest := congrArg (State.setCr · c) h.rest }

theorem LiveEq.setDm (d : DmRegs) : LiveEq (s.setDm d) (s'.setDm d) :=
  { h with rest := congrArg (State.setDm · d) h.rest }

theorem LiveEq.setMd (m : MdRegs) : LiveEq (s.setMd m) (s'.setMd m) :=
  { h with rest := congrArg (State.setMd · m) h.rest }

theorem LiveEq.setCrcAcc (c : BitVec 16) : LiveEq (s.setCrcAcc c) (s'.setCrcAcc c) :=
  { h with rest := congrArg (State.setCrcAcc · c) h.rest }

theorem LiveEq.event (e : Event) : LiveEq (s.event e) (s'.event e) :=
  { h with rest := congrArg (State.event · e) h.rest }

theorem LiveEq.eventIf (c : Bool) (e : Event) : LiveEq (s.eventIf c e) (s'.eventIf c e) :=
  { h with rest := congrArg (State.eventIf · c e) h.rest }

theorem LiveEq.emit (os : List (BitVec 8)) : LiveEq (s.emit os) (s'.emit os) :=
  { h with rest := congrArg (State.emit · os) h.rest }

theorem LiveEq.reply (r : Resp) : LiveEq (s.reply r) (s'.reply r) :=
  { h with rest := congrArg (State.reply · r) h.rest }

theorem LiveEq.setTxq {q q' : QueueRegs} (hq : QueueAlike s.build.txqN q q') : LiveEq (s.setTxq q) (s'.setTxq q') :=
  { h with rest := congrArg₂ State.setTxq h.rest hq.eq_slot, txq := hq.items }

theorem LiveEq.setRxq {q q' : QueueRegs} (hq : QueueAlike s.build.rxqN q q') : LiveEq (s.setRxq q) (s'.setRxq q') :=
  { h with rest := congrArg₂ State.setRxq h.rest hq.eq_slot, rxq := hq.items }

theorem LiveEq.setFc {f f' : FcRegs} (hf : FcAlike f f') : LiveEq (s.setFc f) (s'.setFc f') :=
  { h with rest := congrArg₂ State.setFc h.rest hf.rest, buf := hf.buf }

theorem LiveEq.setFac {f f' : FacRegs} (hf : FacAlike f f') : LiveEq (s.setFac f) (s'.setFac f') :=
  { h with rest := congrArg₂ State.setFac h.rest hf.rest, txbuf := hf.txbuf, pend := hf.pend }

theorem LiveEq.setCfgErr (e : Bool) : LiveEq (s.setCfgErr e) (s'.setCfgErr e) :=
  h.setFac (h.facAlike.update (fun g => { g with cfgErr := e }) (fun _ _ => rfl) le_rfl le_rfl)

theorem LiveEq.clearTxq : LiveEq s.clearTxq s'.clearTxq := h.setTxq (QueueAlike.of_cleared _ _ _)

theorem LiveEq.clearRxq : LiveEq s.clearRxq s'.clearRxq := h.setRxq (QueueAlike.of_cleared _ _ _)

theorem LiveEq.setCollector (acc : BitVec 8) (nbits : Nat) :
    LiveEq (s.setCollector acc nbits) (s'.setCollector acc nbits) :=
  h.setFc (h.fcAlike.update (fun g => { g with acc := acc, nbits := nbits }) (fun _ => rfl) le_rfl)

theorem LiveEq.shiftIn (bit : Bool) : LiveEq (s.shiftIn bit) (s'.shiftIn bit) :=
  h.setFc (h.fcAlike.update (fun g => { g with sr := shiftInBit bit g.sr }) (fun _ => rfl) le_rfl)

theorem LiveEq.setInEsc (e : Bool) :
    LiveEq (s.setFc { s.fc with inEsc := e }) (s'.setFc { s'.fc with inEsc := e }) :=
  h.setFc (h.fcAlike.update (fun g => { g with inEsc := e }) (fun _ => rfl) le_rfl)

theorem LiveEq.resetOnes : LiveEq (s.setFc { s.fc with ones := 0 }) (s'.setFc { s'.fc with ones := 0 }) :=
  h.setFc (h.fcAlike.update (fun g => { g with ones := 0 }) (fun _ => rfl) le_rfl)

theorem LiveEq.endFrame : LiveEq (s.setFc s.fc.endFrame) (s'.setFc s'.fc.endFrame) :=
  h.setFc (h.fcAlike.update FcRegs.endFrame (fun _ => rfl) (Nat.zero_le _))

/-- The staged payload is live (45_frame_codec.md R215). -/
theorem LiveEq.txPayload : s'.txPayload = s.txPayload := by
  rw [State.txPayload, State.txPayload, h.facAlike.txLen, h.txbuf]

theorem LiveEq.status : s'.status = s.status := by
  simp only [State.status, h.facAlike.pendValid, h.facAlike.cfgErr, h.md, h.build, h.txqAlike.count]

end

/-! ### Operations on two states -/

/-- Two results of one operation: states that differ only in stale memory, and the same answer. -/
structure Alike {α : Type} (r r' : State × α) : Prop where
  state : LiveEq r.1 r'.1
  answer : r'.2 = r.2

/-- An answer computed from two equal ones. -/
theorem Alike.map {α β : Type} {r r' : State × α} (h : Alike r r') (g : α → β) :
    Alike (r.1, g r.2) (r'.1, g r'.2) := ⟨h.state, congrArg g h.answer⟩

/-- Two states with the invariant that differ only in stale memory. -/
structure Twin (s s' : State) : Prop where
  left : Invariant s
  right : Invariant s'
  live : LiveEq s s'

section
variable {s s' : State} (h : LiveEq s s')
include h

theorem alike_pair {α : Type} (a : α) : Alike (s, a) (s', a) := ⟨h, rfl⟩

theorem alike_crClear : Alike (crClear s) (crClear s') := by
  unfold crClear
  rw [h.cr]
  exact alike_pair (h.setCr _) _

theorem alike_crSetup : Alike (crSetup s) (crSetup s') := by
  by_cases hv : s.cfg.valid = true
  · rw [crSetup_valid hv, crSetup_valid (h.cfg ▸ hv), h.cr, h.cfg]
    exact alike_pair ((h.setCr _).setCfgErr _) _
  · rw [crSetup_invalid hv, crSetup_invalid (h.cfg ▸ hv)]
    exact alike_pair (h.setCfgErr _) _

theorem alike_crTransition (t : BitVec 32) : Alike (crTransition t s) (crTransition t s') := by
  unfold crTransition
  rw [h.cr, h.build]
  exact alike_pair ((h.setCr _).eventIf _ _) _

theorem alike_dmClear : Alike (dmClear s) (dmClear s') := by
  unfold dmClear
  rw [h.dm, h.build]
  exact alike_pair (alike_crClear (h.setDm _)).state.clearRxq _

theorem alike_dmSetup : Alike (dmSetup s) (dmSetup s') := by
  by_cases hv : s.cfg.valid = true
  · rw [dmSetup_valid hv, dmSetup_valid (h.cfg ▸ hv), h.dm, h.cfg]
    exact alike_pair ((alike_dmClear (alike_crSetup (h.setDm _)).state).state.setCfgErr _) _
  · rw [dmSetup_invalid hv, dmSetup_invalid (h.cfg ▸ hv)]
    exact alike_pair (h.setCfgErr _) _

theorem LiveEq.dmCount : LiveEq (dmCount s) (dmCount s') := by
  unfold Machine.dmCount
  rw [h.dm, h.build]
  dsimp only
  split
  · exact (alike_crClear (h.setDm _)).state.event _
  · exact h.setDm _

theorem LiveEq.flips (x : Int) : s'.flips x = s.flips x := by
  rw [State.flips, State.flips, h.dmCount.dm, h.dmCount.build]

theorem LiveEq.sampled (x : Int) : LiveEq (s.sampled x) (s'.sampled x) := by
  unfold State.sampled
  rw [h.dmCount.dm, h.dmCount.build]
  exact h.dmCount.setDm _

/-- The same symbol put into RXQ of both. -/
theorem LiveEq.pushRxq (hq : QueueInv s.build.rxqN s.rxq) (hq' : QueueInv s'.build.rxqN s'.rxq)
    (hc : s.rxq.canPut s.build.rxqN = true) (v : Nat) :
    LiveEq (s.setRxq (s.rxq.push s.build.rxqN v)) (s'.setRxq (s'.rxq.push s.build.rxqN v)) :=
  h.setRxq (h.rxqAlike.push hq (h.build ▸ hq') hc v)

theorem alike_dmOnTransition (hq : QueueInv s.build.rxqN s.rxq) (hq' : QueueInv s'.build.rxqN s'.rxq) :
    Alike (dmOnTransition s) (dmOnTransition s') := by
  have htracked := alike_crTransition h (zext32 s.dm.cnt)
  unfold dmOnTransition
  rw [h.dm]
  dsimp only
  rw [htracked.answer, htracked.state.dm, htracked.state.build, htracked.state.rxqAlike.canPut]
  split
  · split
    · next hroom => exact alike_pair (htracked.state.pushRxq hq hq' hroom _) _
    · exact alike_pair (htracked.state.event _) _
  · exact alike_pair htracked.state _

theorem alike_mdClear : Alike (mdClear s) (mdClear s') := by
  unfold mdClear
  rw [h.md]
  exact alike_pair (h.setMd _).clearTxq _

theorem alike_mdSetup : Alike (mdSetup s) (mdSetup s') := by
  by_cases hv : s.cfg.valid = true
  · rw [mdSetup_valid hv, mdSetup_valid (h.cfg ▸ hv), h.md, h.cfg]
    exact alike_pair ((h.setMd _).setCfgErr _).clearTxq _
  · rw [mdSetup_invalid hv, mdSetup_invalid (h.cfg ▸ hv)]
    exact alike_pair (h.setCfgErr _) _

theorem alike_mdSetPreamble (n : BitVec 16) : Alike (mdSetPreamble n s) (mdSetPreamble n s') := by
  unfold mdSetPreamble
  rw [h.cfg]
  exact alike_pair (h.setCfg _) _

theorem alike_mdSetPostamble (n : BitVec 16) : Alike (mdSetPostamble n s) (mdSetPostamble n s') := by
  unfold mdSetPostamble
  rw [h.cfg]
  exact alike_pair (h.setCfg _) _

theorem alike_mdEmitSample : Alike (mdEmitSample s) (mdEmitSample s') := by
  unfold mdEmitSample
  rw [h.md, h.build]
  exact alike_pair (h.setMd _) _

theorem alike_fcClear : Alike (fcClear s) (fcClear s') := 
  alike_pair (h.setFc (h.fcAlike.update FcRegs.cleared (fun _ => rfl) (Nat.zero_le _))) _

theorem alike_fcSetup : Alike (fcSetup s) (fcSetup s') := by
  unfold fcSetup
  rw [h.cfg]
  have hloaded := h.fcAlike.update (fun g => { g with crcBE := s.cfg.crcBigEndian }) (fun _ => rfl) le_rfl
  exact alike_pair (alike_fcClear (h.setFc hloaded)).state _

theorem alike_fcSendFrameBytes : Alike (fcSendFrameBytes s) (fcSendFrameBytes s') := by
  unfold fcSendFrameBytes
  rw [h.build, h.fcAlike.crcBE, h.txPayload]
  exact alike_pair (h.resetOnes.emit _) _

theorem alike_facDecodeClearMessage : Alike (facDecodeClearMessage s) (facDecodeClearMessage s') :=
  alike_pair (h.setFac (h.facAlike.update (fun g => { g with pendValid := false, pendLen := 0 }) (fun _ _ => rfl)
    le_rfl (Nat.zero_le _))) _

theorem alike_facRxmsgRead (i : BitVec 32) : Alike (facRxmsgRead i s) (facRxmsgRead i s') := by
  unfold facRxmsgRead
  rw [h.facAlike.pendValid, h.facAlike.pendLen]
  split
  · next hlive =>
    rw [h.facAlike.read hlive.2]
    exact alike_pair h _
  · exact alike_pair h _

theorem alike_facCfgWrite (k : BitVec 8) (v : BitVec 32) : Alike (facCfgWrite k v s) (facCfgWrite k v s') := by
  unfold facCfgWrite
  rw [h.cfg]
  split
  · exact alike_pair h _
  · exact alike_pair (h.setCfg _) _

theorem alike_facCfgRead (k : BitVec 8) : Alike (facCfgRead k s) (facCfgRead k s') := by
  unfold facCfgRead
  rw [h.cfg, h.status]
  split_ifs <;> exact alike_pair h _

/-! ### The queue commands on two states -/

theorem LiveEq.slots (i : QueueId) : s'.slots i = s.slots i := by
  cases i with
  | tx => exact congrArg Build.txqN h.build
  | rx => exact congrArg Build.rxqN h.build

theorem LiveEq.queueAlike (i : QueueId) : QueueAlike (s.slots i) (s.queue i) (s'.queue i) := by
  cases i with
  | tx => exact h.txqAlike
  | rx => exact h.rxqAlike

theorem LiveEq.setQueue (i : QueueId) {q q' : QueueRegs} (hq : QueueAlike (s.slots i) q q') :
    LiveEq (s.setQueue i q) (s'.setQueue i q') := by
  cases i with
  | tx => exact h.setTxq hq
  | rx => exact h.setRxq hq

theorem alike_queueCanPut (i : QueueId) : Alike (queueCanPut i s) (queueCanPut i s') := by
  unfold queueCanPut
  rw [h.slots, (h.queueAlike i).canPut]
  exact alike_pair h _

theorem alike_queueCanGet (i : QueueId) : Alike (queueCanGet i s) (queueCanGet i s') := by
  unfold queueCanGet
  rw [(h.queueAlike i).canGet]
  exact alike_pair h _

theorem alike_queueClear (i : QueueId) : Alike (queueClear i s) (queueClear i s') :=
  alike_pair (h.setQueue i (QueueAlike.of_cleared _ _ _)) _

theorem alike_queueCount (i : QueueId) : Alike (queueCount i s) (queueCount i s') := by
  unfold queueCount
  rw [h.slots, (h.queueAlike i).count]
  exact alike_pair h _

theorem alike_queueNthFromPut (i : QueueId) (n : BitVec 32) :
    Alike (queueNthFromPut i n s) (queueNthFromPut i n s') := by
  unfold queueNthFromPut
  rw [h.slots, (h.queueAlike i).count, (h.queueAlike i).put]
  split <;> exact alike_pair h _

theorem alike_queueNthFromGet (i : QueueId) (n : BitVec 32) :
    Alike (queueNthFromGet i n s) (queueNthFromGet i n s') := by
  unfold queueNthFromGet
  rw [h.slots, (h.queueAlike i).count, (h.queueAlike i).get]
  split <;> exact alike_pair h _

end

/-! ### Operations that put, take or store, on two states with the invariant -/

section
variable {s s' : State} (h : Twin s s')
include h

theorem Twin.rxq_right : QueueInv s.build.rxqN s'.rxq := h.live.build ▸ h.right.rxq

theorem Twin.txq_right : QueueInv s.build.txqN s'.txq := h.live.build ▸ h.right.txq

theorem alike_dmProcess {x : Int} (hx : SampleInv s.build x) : Alike (dmProcess x s) (dmProcess x s') := by
  have hsampled := h.live.sampled x
  rw [dmProcess_eq, dmProcess_eq, h.live.flips]
  split
  · have hdecided := alike_dmOnTransition hsampled (h.left.sampled hx).rxq
      (h.right.sampled (h.live.build ▸ hx)).rxq
    exact ⟨hdecided.state, by dsimp only; rw [hdecided.answer, hdecided.state.dm]⟩
  · rw [hsampled.dm]
    exact alike_pair hsampled _

theorem alike_mdAddSymbol (b : Bool) : Alike (mdAddSymbol b s) (mdAddSymbol b s') := by
  unfold mdAddSymbol
  rw [h.live.build, h.live.txqAlike.canPut, h.live.md]
  split
  · next hroom => exact alike_pair (h.live.setTxq (h.live.txqAlike.push h.left.txq h.txq_right hroom _)) _
  · exact alike_pair ((h.live.setMd _).event _) _

omit h in
theorem alike_mdAddSymbols (bs : List Bool) {s s' : State} (h : Twin s s') :
    Alike (mdAddSymbols bs s) (mdAddSymbols bs s') := by
  induction bs generalizing s s' with
  | nil => exact alike_pair h.live _
  | cons b bs ih =>
    have hfirst := alike_mdAddSymbol h b
    have hrest := ih ⟨invariant_mdAddSymbol h.left b, invariant_mdAddSymbol h.right b, hfirst.state⟩
    rw [mdAddSymbols_cons, mdAddSymbols_cons]
    exact ⟨hrest.state, by rw [hfirst.answer, hrest.answer]⟩

theorem alike_mdAddRun (bs : List Bool) : Alike (mdAddRun bs s) (mdAddRun bs s') :=
  (alike_mdAddSymbols bs h).map fun k => respond (decide (k = bs.length)) (zext32 k)

theorem alike_mdAddPreamble : Alike (mdAddPreamble s) (mdAddPreamble s') := by
  unfold mdAddPreamble
  rw [h.live.cfg]
  exact alike_mdAddRun h _

theorem alike_mdAddPostamble : Alike (mdAddPostamble s) (mdAddPostamble s') := by
  unfold mdAddPostamble
  rw [h.live.cfg]
  exact alike_mdAddRun h _

theorem alike_mdGetSample : Alike (mdGetSample s) (mdGetSample s') := by
  unfold mdGetSample
  rw [h.live.md, h.live.txqAlike.canGet, h.live.build]
  split
  · exact alike_mdEmitSample h.live
  · split
    · next hget =>
      obtain ⟨hhead, hpop⟩ := h.live.txqAlike.head_pop h.left.txq h.txq_right hget
      rw [hhead]
      exact alike_mdEmitSample ((h.live.setTxq hpop).setMd _)
    · exact alike_pair h.live _

theorem alike_fcSendFrameBits : Alike (fcSendFrameBits s) (fcSendFrameBits s') := by
  have hsent := alike_mdAddSymbols (frameBits s.build.crcPoly s.fc.crcBE s.txPayload)
    ⟨h.left.resetOnes, h.right.resetOnes, h.live.resetOnes⟩
  unfold fcSendFrameBits
  rw [h.live.build, h.live.fcAlike.crcBE, h.live.txPayload]
  exact ⟨hsent.state, by dsimp only; rw [hsent.answer]⟩

theorem alike_consume {n : Nat} (hn : n ≤ s.fc.pos) : Alike (consume n s) (consume n s') := by
  unfold consume
  rw [h.live.facAlike.pendValid]
  split
  · exact alike_pair (h.live.event _) _
  · have hbuf := Memory.firstN_eq_of_le hn h.live.buf
    exact alike_pair (h.live.setFac (h.live.facAlike.deliver h.left.fac.pend_wf h.right.fac.pend_wf hbuf)) _

theorem Twin.event (e : Event) : Twin (s.event e) (s'.event e) := ⟨h.left.event e, h.right.event e, h.live.event e⟩

theorem alike_fcBoundary : Alike (fcBoundary s) (fcBoundary s') := by
  unfold fcBoundary
  rw [h.live.fcAlike.pos, h.live.fcAlike.rxCrc]
  split
  · next hpos =>
    rw [h.live.fcAlike.receivedCrc hpos]
    split
    · have hconsumed := alike_consume (h.event .frameOk) (Nat.sub_le s.fc.pos 2)
      exact ⟨hconsumed.state.endFrame, by dsimp only; rw [hconsumed.answer]⟩
    · exact alike_pair (h.live.event .crcMismatch).endFrame _
  · exact alike_pair h.live.endFrame _

theorem alike_fcStore (b : BitVec 8) : Alike (fcStore b s) (fcStore b s') := by
  have hfold : (if 2 ≤ s.fc.pos then
        crcUpd s.build.crcPoly s.fc.rxCrc (Memory.read (Memory.write s'.fc.buf s.fc.pos b) (s.fc.pos - 2))
      else s.fc.rxCrc) =
      if 2 ≤ s.fc.pos then
        crcUpd s.build.crcPoly s.fc.rxCrc (Memory.read (Memory.write s.fc.buf s.fc.pos b) (s.fc.pos - 2))
      else s.fc.rxCrc :=
    ite_congr rfl (fun hpos => by rw [h.live.fcAlike.read_write (by omega)]) fun _ => rfl
  unfold fcStore
  rw [h.live.fcAlike.pos, h.live.fcAlike.rxCrc, h.live.build]
  split
  · have hdropped := h.live.fcAlike.update
      (fun g => { g with pos := 0, rxCrc := 0xFFFF, inEsc := false, discard := true }) (fun _ => rfl) (Nat.zero_le _)
    exact alike_pair ((h.live.setFc hdropped).event _) _
  · dsimp only
    rw [hfold]
    exact alike_pair (h.live.setFc (h.live.fcAlike.store h.left.fc.buf_wf h.right.fc.buf_wf b _)) _

theorem Twin.setInEsc (e : Bool) :
    Twin (s.setFc { s.fc with inEsc := e }) (s'.setFc { s'.fc with inEsc := e }) :=
  ⟨h.left.setFc { h.left.fc with }, h.right.setFc { h.right.fc with }, h.live.setInEsc e⟩

theorem alike_fcRxByte (b : BitVec 8) : Alike (fcRxByte b s) (fcRxByte b s') := by
  unfold fcRxByte
  rw [h.live.fcAlike.discard, h.live.fcAlike.inEsc]
  split_ifs
  · exact alike_fcBoundary h
  · exact alike_pair h.live _
  · exact alike_pair (h.setInEsc _).live _
  · exact alike_fcStore (h.setInEsc false) _
  · exact alike_fcStore h _

theorem Twin.shiftIn (bit : Bool) : Twin (s.shiftIn bit) (s'.shiftIn bit) :=
  ⟨h.left.setFc { h.left.fc with }, h.right.setFc { h.right.fc with }, h.live.shiftIn bit⟩

theorem alike_fcRxBit (bit : Bool) : Alike (fcRxBit bit s) (fcRxBit bit s') := by
  have hbyte := alike_fcRxByte (h.shiftIn bit)
  rw [fcRxBit_eq, fcRxBit_eq, h.live.fcAlike.sr, h.live.fcAlike.acc, h.live.fcAlike.nbits]
  split_ifs
  · exact ⟨(hbyte _).state.setCollector 0 0, by rw [(hbyte _).answer]⟩
  · exact alike_pair (h.live.shiftIn bit) _
  · exact ⟨(hbyte _).state.setCollector 0 0, by rw [(hbyte _).answer]⟩
  · exact alike_pair ((h.live.shiftIn bit).setCollector _ _) _

omit h in
theorem alike_facDrain (k : Nat) {s s' : State} (f : DecFlags) (h : Twin s s') :
    Alike (facDrain k s f) (facDrain k s' f) := by
  induction k generalizing s s' f with
  | zero => exact alike_pair h.live _
  | succ k ih =>
    unfold facDrain
    rw [h.live.rxqAlike.canGet, h.live.build]
    split
    · next hget =>
      obtain ⟨hhead, hpop⟩ := h.live.rxqAlike.head_pop h.left.rxq h.rxq_right hget
      have hright : Invariant (s'.setRxq (s'.rxq.pop s.build.rxqN)) := h.live.build ▸ h.right.popRxq
      have htaken : Twin (s.setRxq (s.rxq.pop s.build.rxqN)) (s'.setRxq (s'.rxq.pop s.build.rxqN)) :=
        ⟨h.left.popRxq, hright, h.live.setRxq hpop⟩
      have hfed := alike_fcRxBit htaken (itemBit s.rxq.head)
      rw [hhead]
      dsimp only
      rw [hfed.answer]
      exact ih _ ⟨invariant_fcRxBit htaken.left _, invariant_fcRxBit htaken.right _, hfed.state⟩
    · exact alike_pair h.live _

theorem alike_facDecodeProcessSample {x : Int} (hx : SampleInv s.build x) :
    Alike (facDecodeProcessSample x s) (facDecodeProcessSample x s') := by
  have hsampled := alike_dmProcess h hx
  have hdrained (k : Nat) (f : DecFlags) := alike_facDrain k f
    ⟨invariant_dmProcess h.left hx, invariant_dmProcess h.right (h.live.build ▸ hx), hsampled.state⟩
  dsimp only [facDecodeProcessSample]
  rw [hsampled.answer, hsampled.state.build, hsampled.state.rxqAlike.count]
  exact ⟨(hdrained _ _).state, by rw [(hdrained _ _).answer, (hdrained _ _).state.facAlike.pendValid]⟩

theorem alike_facSetup : Alike (facSetup s) (facSetup s') := by
  by_cases hv : s.cfg.valid = true
  · rw [facSetup_valid hv, facSetup_valid (h.live.cfg ▸ hv)]
    have hunits := (alike_fcSetup (alike_dmSetup (alike_mdSetup h.live).state).state).state
    exact alike_pair (hunits.setFac (hunits.facAlike.update FacRegs.cleared (fun _ _ => rfl) (Nat.zero_le _)
      (Nat.zero_le _))) _
  · rw [facSetup_invalid hv, facSetup_invalid (h.live.cfg ▸ hv)]
    exact alike_pair (h.live.setCfgErr _) _

theorem alike_facEncodeMessage : Alike (facEncodeMessage s) (facEncodeMessage s') := by
  have hcleared : Twin (mdClear s).1 (mdClear s').1 :=
    ⟨invariant_mdClear h.left, invariant_mdClear h.right, (alike_mdClear h.live).state⟩
  have hpreamble : Twin (mdAddPreamble (mdClear s).1).1 (mdAddPreamble (mdClear s').1).1 :=
    ⟨invariant_mdAddPreamble hcleared.left, invariant_mdAddPreamble hcleared.right, (alike_mdAddPreamble hcleared).state⟩
  have hframe : Twin (fcSendFrameBits (mdAddPreamble (mdClear s).1).1).1
      (fcSendFrameBits (mdAddPreamble (mdClear s').1).1).1 :=
    ⟨invariant_fcSendFrameBits hpreamble.left, invariant_fcSendFrameBits hpreamble.right,
      (alike_fcSendFrameBits hpreamble).state⟩
  have hpostamble := (alike_mdAddPostamble hframe).state
  dsimp only [facEncodeMessage]
  rw [hpostamble.md, hpostamble.build, hpostamble.txqAlike.count]
  exact alike_pair hpostamble _

theorem alike_facTxbufPush (b : BitVec 8) : Alike (facTxbufPush b s) (facTxbufPush b s') := by
  unfold facTxbufPush
  rw [h.live.facAlike.txLen, h.live.build]
  split
  · exact alike_pair h.live _
  · exact alike_pair (h.live.setFac (h.live.facAlike.stage h.left.fac.txbuf_wf h.right.fac.txbuf_wf b)) _

theorem Twin.queue_right (i : QueueId) : QueueInv (s.slots i) (s'.queue i) := h.live.slots i ▸ h.right.queue i

end

/-! ### Commands on two states -/

/-- Two outcomes of one command: next states that differ only in stale memory, or the same fault. -/
inductive AnsweredAlike : Host.Outcome State Fault Refusal → Host.Outcome State Fault Refusal → Prop
  | next {t t' : State} (h : LiveEq t t') : AnsweredAlike (.next t) (.next t')
  | fault (f : Fault) : AnsweredAlike (.fault f) (.fault f)

/-- The same response on the same port. -/
theorem answeredAlike_finish {r r' : State × Resp} (h : Alike r r') : AnsweredAlike (finish r) (finish r') := by
  unfold finish
  rw [h.answer]
  exact .next (h.state.reply _)

section
variable {s s' : State} (h : Twin s s')
include h

theorem answeredAlike_queuePut (i : QueueId) (item : Nat) :
    AnsweredAlike (queuePut i item s) (queuePut i item s') := by
  have halike := h.live.queueAlike i
  unfold queuePut
  rw [h.live.slots, halike.canPut, h.live.cmdReg, h.live.serving]
  split
  · next hroom =>
    have hput := halike.push (h.left.queue i) (h.queue_right i) hroom item
    exact answeredAlike_finish (alike_pair (h.live.setQueue i hput) _)
  · exact .fault _

theorem answeredAlike_queueGet (i : QueueId) : AnsweredAlike (queueGet i s) (queueGet i s') := by
  have halike := h.live.queueAlike i
  unfold queueGet
  rw [h.live.slots, halike.canGet, h.live.cmdReg, h.live.serving]
  split
  · next hget =>
    obtain ⟨hhead, hpop⟩ := halike.head_pop (h.left.queue i) (h.queue_right i) hget
    rw [hhead]
    exact answeredAlike_finish (alike_pair (h.live.setQueue i hpop) _)
  · exact .fault _

/-- Every command answers two such states alike (10_state.md R34). -/
theorem answeredAlike_exec (i : Instr) : AnsweredAlike (exec i s) (exec i s') := by
  cases i with
  | facNop => exact answeredAlike_finish (alike_pair h.live _)
  | facSetup => exact answeredAlike_finish (alike_facSetup h)
  | facEncodeMessage => exact answeredAlike_finish (alike_facEncodeMessage h)
  | facEncodeGetSample => exact answeredAlike_finish (alike_mdGetSample h)
  | facDecodeProcessSample x =>
    rw [exec, exec, execFacDecodeProcessSample, execFacDecodeProcessSample, h.live.build]
    exact answeredAlike_finish (alike_facDecodeProcessSample h (operandSample_range h.left.build x))
  | facDecodeGetMessage =>
    rw [exec, exec, execFacDecodeGetMessage, execFacDecodeGetMessage, h.live.facAlike.pendValid,
      h.live.facAlike.pendLen]
    exact answeredAlike_finish (alike_pair h.live _)
  | facDecodeClearMessage => exact answeredAlike_finish (alike_facDecodeClearMessage h.live)
  | facTxbufClear =>
    have hunstaged := h.live.facAlike.update (fun g => { g with txLen := 0 }) (fun _ _ => rfl) (Nat.zero_le _) le_rfl
    exact answeredAlike_finish (alike_pair (h.live.setFac hunstaged) _)
  | facTxbufPush b => exact answeredAlike_finish (alike_facTxbufPush h b)
  | facRxmsgRead i => exact answeredAlike_finish (alike_facRxmsgRead h.live i)
  | facCfgWrite k v => exact answeredAlike_finish (alike_facCfgWrite h.live k v)
  | facCfgRead k => exact answeredAlike_finish (alike_facCfgRead h.live k)
  | mdSetup => exact answeredAlike_finish (alike_mdSetup h.live)
  | mdClear => exact answeredAlike_finish (alike_mdClear h.live)
  | mdSetPreamble n => exact answeredAlike_finish (alike_mdSetPreamble h.live n)
  | mdSetPostamble n => exact answeredAlike_finish (alike_mdSetPostamble h.live n)
  | mdAddPreamble => exact answeredAlike_finish (alike_mdAddPreamble h)
  | mdAddPostamble => exact answeredAlike_finish (alike_mdAddPostamble h)
  | mdAddSymbol b => exact answeredAlike_finish (alike_mdAddSymbol h b)
  | mdGetSample => exact answeredAlike_finish (alike_mdGetSample h)
  | dmSetup => exact answeredAlike_finish (alike_dmSetup h.live)
  | dmClear => exact answeredAlike_finish (alike_dmClear h.live)
  | dmProcessSample x =>
    have hsampled := alike_dmProcess h (operandSample_range h.left.build x)
    rw [exec, exec, execDmProcessSample, execDmProcessSample, h.live.build]
    exact answeredAlike_finish (hsampled.map fun f => respond true f.rdata)
  | crSetup => exact answeredAlike_finish (alike_crSetup h.live)
  | crClear => exact answeredAlike_finish (alike_crClear h.live)
  | crTransition t =>
    exact answeredAlike_finish ((alike_crTransition h.live t).map fun r => respond true r.rdata)
  | fcSetup => exact answeredAlike_finish (alike_fcSetup h.live)
  | fcClear => exact answeredAlike_finish (alike_fcClear h.live)
  | fcSendFrameBytes => exact answeredAlike_finish (alike_fcSendFrameBytes h.live)
  | fcSendFrameBits => exact answeredAlike_finish (alike_fcSendFrameBits h)
  | fcRxByte b =>
    exact answeredAlike_finish ((alike_fcRxByte h b).map fun f => respond true f.rdata)
  | fcRxBit bit =>
    exact answeredAlike_finish ((alike_fcRxBit h bit).map fun f => respond true f.rdata)
  | crcInit =>
    rw [exec, exec, execCrcInit, execCrcInit, h.live.build]
    exact answeredAlike_finish (alike_pair (h.live.setCrcAcc _) _)
  | crcUpdate b =>
    rw [exec, exec, execCrcUpdate, execCrcUpdate, h.live.build, h.live.crcAcc]
    exact answeredAlike_finish (alike_pair (h.live.setCrcAcc _) _)
  | crcRead =>
    rw [exec, exec, execCrcRead, execCrcRead, h.live.crcAcc]
    exact answeredAlike_finish (alike_pair h.live _)
  | crcTableRead i =>
    rw [exec, exec, execCrcTableRead, execCrcTableRead, h.live.build]
    exact answeredAlike_finish (alike_pair h.live _)
  | txqCanPut => exact answeredAlike_finish (alike_queueCanPut h.live .tx)
  | txqPut d =>
    rw [exec, exec, execTxqPut, execTxqPut, h.live.build]
    exact answeredAlike_queuePut h .tx _
  | txqCanGet => exact answeredAlike_finish (alike_queueCanGet h.live .tx)
  | txqGet => exact answeredAlike_queueGet h .tx
  | txqClear => exact answeredAlike_finish (alike_queueClear h.live .tx)
  | txqCount => exact answeredAlike_finish (alike_queueCount h.live .tx)
  | txqNthFromPut n => exact answeredAlike_finish (alike_queueNthFromPut h.live .tx n)
  | txqNthFromGet n => exact answeredAlike_finish (alike_queueNthFromGet h.live .tx n)
  | rxqCanPut => exact answeredAlike_finish (alike_queueCanPut h.live .rx)
  | rxqPut d =>
    rw [exec, exec, execRxqPut, execRxqPut, h.live.build]
    exact answeredAlike_queuePut h .rx _
  | rxqCanGet => exact answeredAlike_finish (alike_queueCanGet h.live .rx)
  | rxqGet => exact answeredAlike_queueGet h .rx
  | rxqClear => exact answeredAlike_finish (alike_queueClear h.live .rx)
  | rxqCount => exact answeredAlike_finish (alike_queueCount h.live .rx)
  | rxqNthFromPut n => exact answeredAlike_finish (alike_queueNthFromPut h.live .rx n)
  | rxqNthFromGet n => exact answeredAlike_finish (alike_queueNthFromGet h.live .rx n)

end

end Sys2Proof.Machine

namespace Sys2Proof.Proofs

open Sys2Proof.Machine

/-- Settles O60, from the answers of two states that differ only in stale memory, command by command. -/
theorem staleMemoryIsNeverObservable : Obligations.StaleMemoryIsNeverObservable := by
  intro i s s' hs hs' hlive
  have halike := answeredAlike_exec ⟨hs, hs', hlive⟩ i
  generalize exec i s = o at halike ⊢
  generalize exec i s' = o' at halike ⊢
  cases halike with
  | next h => exact h
  | fault f => rfl

end Sys2Proof.Proofs
end

section
/-! CERTIFICATE. Each queue is a bounded FIFO (20_memory.md R72, 40_queue.md R100, R110): one direct PUT or GET on either
queue, then any run of them. -/

namespace Sys2Proof.Machine

/-! ### Occupancy -/

section
variable {n : Nat} {q : QueueRegs}

theorem QueueRegs.length_items (n : Nat) (q : QueueRegs) : (q.items n).length = q.count n := by
  simp [QueueRegs.items]

/-- One slot of the `N` stays free (40_queue.md R100). -/
theorem QueueRegs.canPut_iff_count (hq : QueueInv n q) : q.canPut n = true ↔ q.count n < n - 1 := by
  have hput := hq.put_lt
  have hget := hq.get_lt
  rw [QueueRegs.canPut_iff, QueueRegs.count_eq hq, add_mod_wrap hput (by omega)]
  split_ifs <;> omega

theorem QueueRegs.canGet_iff_count (hq : QueueInv n q) : q.canGet = true ↔ q.count n ≠ 0 := by
  have hput := hq.put_lt
  have hget := hq.get_lt
  rw [QueueRegs.canGet_iff, QueueRegs.count_eq hq]
  split_ifs <;> omega

end

/-! ### One direct queue command -/

/-- The direct PUT of a queue (40_queue.md R110). -/
def QueueId.put : QueueId → Data → Instr
  | .tx => .txqPut
  | .rx => .rxqPut

/-- The direct GET of a queue. -/
def QueueId.get : QueueId → Instr
  | .tx => .txqGet
  | .rx => .rxqGet

/-- A PUT with `DATA` `d` for `some d`, a GET for `none`. -/
def QueueId.command (i : QueueId) : Option Data → Instr
  | some d => i.put d
  | none => i.get

theorem exec_command_put (i : QueueId) (d : Data) (s : State) :
    exec (i.command (some d)) s = queuePut i (operandItem s.build d) s := by
  cases i <;> rfl

theorem exec_command_get (i : QueueId) (s : State) : exec (i.command none) s = queueGet i s := by
  cases i <;> rfl

section
variable (s : State) (i : QueueId) (q : QueueRegs)

theorem State.setPort_port (p : Port) : s.setPort p (s.port p) = s := by cases p <;> rfl

theorem State.setPort_setPort (p : Port) (a b : PortState) : (s.setPort p a).setPort p b = s.setPort p b := by
  cases p <;> rfl

theorem State.setQueue_queue : s.setQueue i (s.queue i) = s := by cases i <;> rfl

theorem State.setQueue_setQueue (q' : QueueRegs) : (s.setQueue i q).setQueue i q' = s.setQueue i q' := by
  cases i <;> rfl

theorem State.setQueue_setPort (p : Port) (a : PortState) :
    (s.setPort p a).setQueue i q = (s.setQueue i q).setPort p a := by
  cases i <;> rfl

@[simp] theorem State.setQueue_serving : (s.setQueue i q).serving = s.serving := by cases i <;> rfl

@[simp] theorem State.setQueue_port (p : Port) : (s.setQueue i q).port p = s.port p := by cases i <;> cases p <;> rfl

end

/-- `s` after commands on queue `i`: its new registers `q`, and the words `ws` answered on the serving port. -/
def State.queueAnswered (s : State) (i : QueueId) (q : QueueRegs) (ws : List CmdWord) : State :=
  (s.setQueue i q).setPort s.serving
    { pending := (s.port s.serving).pending
      responses := (s.port s.serving).responses ++ ws }

section
variable (s : State) (i : QueueId) (q : QueueRegs) (ws : List CmdWord)

@[simp] theorem State.queueAnswered_build : (s.queueAnswered i q ws).build = s.build := by cases i <;> rfl

@[simp] theorem State.queueAnswered_slots : (s.queueAnswered i q ws).slots i = s.slots i := by cases i <;> rfl

@[simp] theorem State.queueAnswered_queue : (s.queueAnswered i q ws).queue i = q := by cases i <;> rfl

theorem State.queueAnswered_nil : s.queueAnswered i (s.queue i) [] = s := by
  rw [State.queueAnswered, List.append_nil, State.setQueue_queue]
  exact State.setPort_port s s.serving

/-- The answers of two runs one after the other come in that order. -/
theorem State.queueAnswered_queueAnswered (q' : QueueRegs) (ws' : List CmdWord) :
    (s.queueAnswered i q ws).queueAnswered i q' ws' = s.queueAnswered i q' (ws ++ ws') := by
  simp [State.queueAnswered, State.setQueue_setPort, State.setQueue_setQueue, State.setPort_setPort]

theorem State.reply_setQueue (r : Resp) : (s.setQueue i q).reply r = s.queueAnswered i q [r.word] := by
  simp [State.reply, State.queueAnswered]

end

/-! ### A run of direct queue commands -/

/-- A run that goes on goes on after its first command. -/
theorem execAll_cons_next {i : Instr} {is : List Instr} {s t : State} (h : execAll (i :: is) s = .next t) :
    ∃ u, exec i s = .next u ∧ execAll is u = .next t := by
  rw [execAll] at h
  split at h
  · next u hu => exact ⟨u, hu, h⟩
  · cases h
  · cases h

/-- The items that the PUTs of a run store, in order (40_queue.md R102). -/
def putItems (b : Build) (ops : List (Option Data)) : List Nat := (ops.filterMap id).map (operandItem b)

/-- What the GETs of a run answer, then what is left, is what was there, then what the PUTs stored (20_memory.md R72). -/
theorem execAll_command_fifo (i : QueueId) (ops : List (Option Data)) {s t : State}
    (hq : QueueInv (s.slots i) (s.queue i)) (h : execAll (ops.map i.command) s = .next t) :
    ∃ got : List Nat,
      (s.queue i).items (s.slots i) ++ putItems s.build ops = got ++ (t.queue i).items (s.slots i) ∧
      got.length = (ops.filter fun o => o.isNone).length ∧
      t = s.queueAnswered i (t.queue i) (queueWords ops got) := by
  induction ops generalizing s with
  | nil =>
    cases h
    exact ⟨[], by simp [putItems], rfl, (State.queueAnswered_nil _ i).symm⟩
  | cons o ops ih =>
    obtain ⟨u, hu, hrest⟩ := execAll_cons_next h
    cases o with
    | some d =>
      rw [exec_command_put] at hu
      obtain ⟨hroom, rfl⟩ := queuePut_next hu
      rw [State.reply_setQueue] at hrest
      obtain ⟨got, hitems, hlength, ht⟩ := ih (by simpa using hq.push _) hrest
      refine ⟨got, ?_, by simpa using hlength, ?_⟩
      · simpa [QueueRegs.items_push hq hroom, putItems] using hitems
      · rw [State.queueAnswered_queueAnswered] at ht
        exact ht
    | none =>
      rw [exec_command_get] at hu
      obtain ⟨hitem, rfl⟩ := queueGet_next hu
      rw [State.reply_setQueue] at hrest
      obtain ⟨got, hitems, hlength, ht⟩ := ih (by simpa using hq.pop) hrest
      refine ⟨(s.queue i).head :: got, ?_, by simpa using hlength, ?_⟩
      · simpa [QueueRegs.items_pop hq hitem, putItems] using hitems
      · rw [State.queueAnswered_queueAnswered] at ht
        exact ht

end Sys2Proof.Machine

namespace Sys2Proof.Proofs

open Sys2Proof.Machine

/-- Settles O18, by induction on the run, for both queues at once. -/
theorem queuesKeepFifoOrder : Obligations.QueuesKeepFifoOrder := by
  refine ⟨fun s t ops => execAll_command_fifo .tx ops, fun s t ops => execAll_command_fifo .rx ops, fun n q hq => ?_⟩
  rw [QueueRegs.length_items, ← List.length_pos_iff, QueueRegs.length_items, Nat.pos_iff_ne_zero]
  exact ⟨rfl, QueueRegs.canPut_iff_count hq, QueueRegs.canGet_iff_count hq, QueueRegs.items_cleared n q⟩

end Sys2Proof.Proofs
end

section
/-! CERTIFICATE. Which port is served (20_memory.md R69, R74; 60_exceptions.md R306). -/

namespace Sys2Proof.Machine

section
variable {s : State}

theorem State.nextPort_none (hT : s.portT.pending = []) (hA : s.portA.pending = []) : s.nextPort = none := by
  rw [State.nextPort, hT, hA]

theorem State.nextPort_tick_alone (hT : s.portT.pending ≠ []) (hA : s.portA.pending = []) :
    s.nextPort = some (.tick, s.portOrder) := by
  obtain ⟨w, ws, hT⟩ := List.exists_cons_of_ne_nil hT
  rw [State.nextPort, hT, hA]

theorem State.nextPort_app_alone (hT : s.portT.pending = []) (hA : s.portA.pending ≠ []) :
    s.nextPort = some (.app, s.portOrder) := by
  obtain ⟨w, ws, hA⟩ := List.exists_cons_of_ne_nil hA
  rw [State.nextPort, hT, hA]

/-- Of two pending commands the port order names the first, and the tick port's goes first when it is used up
(60_exceptions.md R306). -/
theorem State.nextPort_both (hT : s.portT.pending ≠ []) (hA : s.portA.pending ≠ []) :
    s.nextPort = some (s.portOrder.headD .tick, s.portOrder.tail) := by
  obtain ⟨w, ws, hT⟩ := List.exists_cons_of_ne_nil hT
  obtain ⟨v, vs, hA⟩ := List.exists_cons_of_ne_nil hA
  rw [State.nextPort, hT, hA]

/-- With no port to serve the block waits (20_memory.md R74). -/
theorem step_waits (hb : s.build.valid = true) (hr : s.resetIn = .off) (hn : s.nextPort = none) :
    step s = .next s := by
  simp [step, hb, hr, hn]

end

end Sys2Proof.Machine

namespace Sys2Proof.Proofs

open Sys2Proof.Machine

/-- Settles O6, one case per choice of pending commands. -/
theorem portsAreServedOneCommandAtATime : Obligations.PortsAreServedOneCommandAtATime := by
  refine fun s hb hr => ⟨fun hT hA => step_waits hb hr (State.nextPort_none hT hA), State.nextPort_tick_alone,
    State.nextPort_app_alone, fun hT hA horder => ?_, fun p ps hT hA horder => ?_⟩
  · rw [State.nextPort_both hT hA, horder]; rfl
  · rw [State.nextPort_both hT hA, horder]; rfl

end Sys2Proof.Proofs
end

section
/-! CERTIFICATE. The commands with no side effect (20_memory.md R68). -/

namespace Sys2Proof.Machine

/-! ### A response and what the queue commands read -/

@[simp] theorem State.reply_queue (s : State) (r : Resp) (i : QueueId) : (s.reply r).queue i = s.queue i := by
  cases i <;> rfl

@[simp] theorem State.reply_slots (s : State) (r : Resp) (i : QueueId) : (s.reply r).slots i = s.slots i := by
  cases i <;> rfl

/-! ### Operations that only look -/

/-- An operation that leaves the state as it is and whose answer does not depend on the responses already returned. -/
structure Observes (op : State → State × Resp) : Prop where
  keeps : ∀ s, (op s).1 = s
  alike : ∀ s r, (op (s.reply r)).2 = (op s).2

/-- Issued twice, such an operation gives the same response twice (20_memory.md R68). -/
theorem Observes.twice {op : State → State × Resp} (h : Observes op) (s : State) :
    ∃ r : Resp, finish (op s) = .next (s.reply r) ∧ finish (op (s.reply r)) = .next ((s.reply r).reply r) :=
  ⟨(op s).2, by rw [finish, h.keeps], by rw [finish, h.keeps, h.alike]⟩

theorem observes_answer {answer : State → Resp} (h : ∀ s r, answer (s.reply r) = answer s) :
    Observes fun s => (s, answer s) :=
  ⟨fun _ => rfl, h⟩

theorem observes_queueCanPut (i : QueueId) : Observes (queueCanPut i) :=
  observes_answer fun s r => by rw [State.reply_queue, State.reply_slots]

theorem observes_queueCanGet (i : QueueId) : Observes (queueCanGet i) :=
  observes_answer fun s r => by rw [State.reply_queue]

theorem observes_queueCount (i : QueueId) : Observes (queueCount i) :=
  observes_answer fun s r => by rw [State.reply_queue, State.reply_slots]

theorem observes_queueNthFromPut (i : QueueId) (n : BitVec 32) : Observes (queueNthFromPut i n) where
  keeps s := by unfold queueNthFromPut; split <;> rfl
  alike s r := by
    unfold queueNthFromPut
    rw [State.reply_queue, State.reply_slots]
    split <;> rfl

theorem observes_queueNthFromGet (i : QueueId) (n : BitVec 32) : Observes (queueNthFromGet i n) where
  keeps s := by unfold queueNthFromGet; split <;> rfl
  alike s r := by
    unfold queueNthFromGet
    rw [State.reply_queue, State.reply_slots]
    split <;> rfl

theorem observes_facRxmsgRead (i : BitVec 32) : Observes (facRxmsgRead i) where
  keeps s := by unfold facRxmsgRead; split <;> rfl
  alike s r := by
    unfold facRxmsgRead
    rw [State.reply_fac]
    split <;> rfl

theorem observes_facCfgRead (k : BitVec 8) : Observes (facCfgRead k) where
  keeps s := by unfold facCfgRead; split_ifs <;> rfl
  alike s r := by unfold facCfgRead; split_ifs <;> rfl

/-- The commands of 20_memory.md R68 are those that only look. -/
theorem exec_of_isReadOnly {i : Instr} (h : isReadOnly i = true) :
    ∃ op, Observes op ∧ ∀ s, exec i s = finish (op s) := by
  cases i with
  | facNop => exact ⟨_, observes_answer (answer := fun _ => respond true 0) fun _ _ => rfl, fun _ => rfl⟩
  | facDecodeGetMessage =>
    exact ⟨_, observes_answer (answer := fun s => respond s.fac.pendValid (zext32 s.fac.pendLen)) fun _ _ => rfl,
      fun _ => rfl⟩
  | facRxmsgRead i => exact ⟨_, observes_facRxmsgRead i, fun _ => rfl⟩
  | facCfgRead k => exact ⟨_, observes_facCfgRead k, fun _ => rfl⟩
  | crcRead =>
    exact ⟨_, observes_answer (answer := fun s => respond true (s.crcAcc.setWidth 32)) fun _ _ => rfl, fun _ => rfl⟩
  | crcTableRead i =>
    exact ⟨_, observes_answer (answer := fun s => respond true ((crcTable s.build.crcPoly i).setWidth 32))
      fun _ _ => rfl, fun _ => rfl⟩
  | txqCanPut => exact ⟨_, observes_queueCanPut .tx, fun _ => rfl⟩
  | txqCanGet => exact ⟨_, observes_queueCanGet .tx, fun _ => rfl⟩
  | txqCount => exact ⟨_, observes_queueCount .tx, fun _ => rfl⟩
  | txqNthFromPut n => exact ⟨_, observes_queueNthFromPut .tx n, fun _ => rfl⟩
  | txqNthFromGet n => exact ⟨_, observes_queueNthFromGet .tx n, fun _ => rfl⟩
  | rxqCanPut => exact ⟨_, observes_queueCanPut .rx, fun _ => rfl⟩
  | rxqCanGet => exact ⟨_, observes_queueCanGet .rx, fun _ => rfl⟩
  | rxqCount => exact ⟨_, observes_queueCount .rx, fun _ => rfl⟩
  | rxqNthFromPut n => exact ⟨_, observes_queueNthFromPut .rx n, fun _ => rfl⟩
  | rxqNthFromGet n => exact ⟨_, observes_queueNthFromGet .rx n, fun _ => rfl⟩
  | _ => cases h

/-- The word of FAC.NOP decodes to it, whatever `DATA` is (30_encoding.md R83, R88). -/
theorem decode_nop (d : Data) : decode (cmdWord 0 0 0 d) = .ok .facNop := by
  simp [decode, decodeRow, decodeFac, usesSel]

end Sys2Proof.Machine

namespace Sys2Proof.Proofs

open Sys2Proof.Machine

/-- Settles O50: each of the commands runs an operation that only looks. -/
theorem readOnlyCommandsChangeNothing : Obligations.ReadOnlyCommandsChangeNothing := by
  refine ⟨decode_nop, fun _ => rfl, fun i s h => ?_⟩
  obtain ⟨op, hop, hexec⟩ := exec_of_isReadOnly h
  rw [hexec]
  simpa only [hexec] using hop.twice s

end Sys2Proof.Proofs
end

section
/-! CERTIFICATE. The decoder against the table of 30_encoding.md R83: the decoder as the encoder's inverse (R88, R89), the bits
of `DATA` a command does not read (R85, R87), and the illegal words (R86). -/

namespace Sys2Proof.Machine

/-! ### Operands and the bits of `DATA` they fill -/

section
variable {d d' : Data}

/-- A full-width operand is all of `DATA`. -/
@[simp] theorem and_fullMask (d : Data) : d &&& 0xFFFFFFFF#32 = d := BitVec.and_allOnes

/-- The lowest `n` bits of `DATA`, all of them from 32 on. -/
theorem toNat_and_lowBits (d : Data) (n : Nat) : (d &&& lowBits n).toNat = d.toNat % 2 ^ min n 32 := by
  apply Nat.eq_of_testBit_eq
  intro i
  rw [Nat.testBit_mod_two_pow, BitVec.testBit_toNat, BitVec.testBit_toNat, BitVec.getLsbD_and, lowBits,
    BitVec.getLsbD_ofNat, Nat.testBit_two_pow_sub_one]
  simp [Bool.and_comm]

/-- A byte operand fills the lowest 8 bits of `DATA` (30_encoding.md R85). -/
@[simp] theorem dataOfByte_operandByte (d : Data) : dataOfByte (operandByte d) = d &&& 0xFF := by
  have hmask : (d &&& 0xFF).toNat = d.toNat % 2 ^ 8 := toNat_and_lowBits d 8
  apply BitVec.eq_of_toNat_eq
  rw [hmask, dataOfByte, operandByte, BitVec.toNat_setWidth, BitVec.extractLsb'_toNat, Nat.shiftRight_zero]
  omega

/-- A length fills the lowest 16 bits of `DATA`. -/
@[simp] theorem dataOfHalf_operandHalf (d : Data) : dataOfHalf (operandHalf d) = d &&& 0xFFFF := by
  have hmask : (d &&& 0xFFFF).toNat = d.toNat % 2 ^ 16 := toNat_and_lowBits d 16
  apply BitVec.eq_of_toNat_eq
  rw [hmask, dataOfHalf, operandHalf, BitVec.toNat_setWidth, BitVec.extractLsb'_toNat, Nat.shiftRight_zero]
  omega

/-- A bit operand fills the lowest bit of `DATA`. -/
@[simp] theorem dataOfBit_operandBit (d : Data) : dataOfBit (operandBit d) = d &&& 1 := by
  have hmask : (d &&& 1).toNat = d.toNat % 2 ^ 1 := toNat_and_lowBits d 1
  apply BitVec.eq_of_toNat_eq
  rw [hmask, dataOfBit, operandBit, bit32, zext32, BitVec.toNat_ofNat, BitVec.getLsbD, Nat.testBit_zero]
  rcases Nat.mod_two_eq_zero_or_one d.toNat with h | h <;> simp [h]

theorem operandByte_congr (h : d &&& 0xFF = d' &&& 0xFF) : operandByte d = operandByte d' := by
  rw [← operandByte_dataOfByte (operandByte d), ← operandByte_dataOfByte (operandByte d'), dataOfByte_operandByte,
    dataOfByte_operandByte, h]

theorem operandHalf_congr (h : d &&& 0xFFFF = d' &&& 0xFFFF) : operandHalf d = operandHalf d' := by
  rw [← operandHalf_dataOfHalf (operandHalf d), ← operandHalf_dataOfHalf (operandHalf d'), dataOfHalf_operandHalf,
    dataOfHalf_operandHalf, h]

theorem operandBit_congr (h : d &&& 1 = d' &&& 1) : operandBit d = operandBit d' := by
  rw [← operandBit_dataOfBit (operandBit d), ← operandBit_dataOfBit (operandBit d'), dataOfBit_operandBit,
    dataOfBit_operandBit, h]

/-- A sample operand reads the lowest `SAMPLE_BITS` bits of `DATA` (20_memory.md R64). -/
theorem operandSample_congr {b : Build} (h : d &&& lowBits b.sampleBits = d' &&& lowBits b.sampleBits) :
    operandSample b d = operandSample b d' := by
  rw [operandSample, operandSample, sext, sext, ← toNat_and_lowBits, ← toNat_and_lowBits, h]

/-- An item operand reads the lowest `Q_ITEM_BITS` bits of `DATA` (40_queue.md R102). -/
theorem operandItem_congr {b : Build} (h : d &&& lowBits b.qItemBits = d' &&& lowBits b.qItemBits) :
    operandItem b d = operandItem b d' := by
  have hitem : ∀ e : Data, operandItem b e = (e &&& lowBits b.qItemBits).toNat := fun e => by
    rw [toNat_and_lowBits, operandItem, Build.item]
    rcases le_total b.qItemBits 32 with hq | hq
    · rw [min_eq_left hq]
    · rw [min_eq_right hq, Nat.mod_eq_of_lt e.isLt, Nat.mod_eq_of_lt]
      exact e.isLt.trans_le (Nat.pow_le_pow_right two_pos hq)
  rw [hitem, hitem, h]

end

/-! ### A command with another `DATA` word -/

/-- The command of the same row of 30_encoding.md R83, with its operand read from `d`. -/
def withOperand (d : Data) : Instr → Instr
  | .facDecodeProcessSample _ => .facDecodeProcessSample d
  | .facTxbufPush _ => .facTxbufPush (operandByte d)
  | .facRxmsgRead _ => .facRxmsgRead d
  | .facCfgWrite k _ => .facCfgWrite k d
  | .mdSetPreamble _ => .mdSetPreamble (operandHalf d)
  | .mdSetPostamble _ => .mdSetPostamble (operandHalf d)
  | .mdAddSymbol _ => .mdAddSymbol (operandBit d)
  | .dmProcessSample _ => .dmProcessSample d
  | .crTransition _ => .crTransition d
  | .fcRxByte _ => .fcRxByte (operandByte d)
  | .fcRxBit _ => .fcRxBit (operandBit d)
  | .crcUpdate _ => .crcUpdate (operandByte d)
  | .crcTableRead _ => .crcTableRead (operandByte d)
  | .txqPut _ => .txqPut d
  | .txqNthFromPut _ => .txqNthFromPut d
  | .txqNthFromGet _ => .txqNthFromGet d
  | .rxqPut _ => .rxqPut d
  | .rxqNthFromPut _ => .rxqNthFromPut d
  | .rxqNthFromGet _ => .rxqNthFromGet d
  | i => i

/-- The decoder keeps no bit of `DATA` outside `dataMask`, by the operand forms of 30_encoding.md R85. -/
theorem withOperand_congr {i : Instr} {d d' : Data} (h : d &&& dataMask i = d' &&& dataMask i) :
    withOperand d i = withOperand d' i := by
  cases i with
  | facTxbufPush b => exact congrArg Instr.facTxbufPush (operandByte_congr h)
  | fcRxByte b => exact congrArg Instr.fcRxByte (operandByte_congr h)
  | crcUpdate b => exact congrArg Instr.crcUpdate (operandByte_congr h)
  | crcTableRead b => exact congrArg Instr.crcTableRead (operandByte_congr h)
  | mdSetPreamble n => exact congrArg Instr.mdSetPreamble (operandHalf_congr h)
  | mdSetPostamble n => exact congrArg Instr.mdSetPostamble (operandHalf_congr h)
  | mdAddSymbol b => exact congrArg Instr.mdAddSymbol (operandBit_congr h)
  | fcRxBit b => exact congrArg Instr.fcRxBit (operandBit_congr h)
  | facDecodeProcessSample _ | facRxmsgRead _ | facCfgWrite _ _ | dmProcessSample _ | crTransition _ | txqPut _
  | txqNthFromPut _ | txqNthFromGet _ | rxqPut _ | rxqNthFromPut _ | rxqNthFromGet _ =>
    have hdata : d = d' := by simpa [dataMask] using h
    rw [hdata]
  | _ => rfl

/-- A command acts on no bit of `DATA` outside `readMask` (30_encoding.md R85). A sample and a queue item are `DATA` whole to the
decoder, and the command takes its field of it. -/
theorem exec_withOperand_congr {i : Instr} {s : State} {d d' : Data}
    (h : d &&& readMask s.build i = d' &&& readMask s.build i) : exec (withOperand d i) s = exec (withOperand d' i) s := by
  cases i with
  | facDecodeProcessSample x =>
    exact congrArg (fun x => finish (facDecodeProcessSample x s)) (operandSample_congr h)
  | dmProcessSample x =>
    exact congrArg (fun x => finish ((dmProcess x s).1, respond true (dmProcess x s).2.rdata)) (operandSample_congr h)
  | txqPut v => exact congrArg (fun v => queuePut .tx v s) (operandItem_congr h)
  | rxqPut v => exact congrArg (fun v => queuePut .rx v s) (operandItem_congr h)
  | _ => exact congrArg (exec · s) (withOperand_congr h)

/-! ### The table of R83, row by row -/

/-- What the table fixes for the command `i` it gives for `(UNIT, OP) = (u, o)`, `SEL = k` and `DATA = d`: the encoder writes it
back into the same row, and the row gives the same command for every other `DATA`, the operand aside. -/
structure IsRow (u o : Nat) (k : BitVec 8) (d : Data) (i : Instr) : Prop where
  unit_lt : u < 8
  encoded : encode i = cmdWord (BitVec.ofNat 4 u) (BitVec.ofNat 4 o) (if usesSel u o then k else 0) (d &&& dataMask i)
  withOperand : ∀ d', decodeRow u o k d' = some (withOperand d' i)

section
variable {u o : Nat} {k : BitVec 8} {d : Data} {i : Instr}

/-- Row by row: the operand of each is what `dataMask` keeps of `DATA`. -/
theorem decodeRow_isRow (h : decodeRow u o k d = some i) : IsRow u o k d i := by
  unfold decodeRow decodeFac decodeMd decodeDm decodeCr decodeFc decodeCrc decodeTxq decodeRxq at h
  split at h
  case h_9 => cases h
  all_goals
    split at h <;> cases h <;> exact ⟨by decide, by simp [encode, dataMask, usesSel], fun _ => rfl⟩

/-- Each unit has a row for every operation below its count in `unitRows`. -/
theorem exists_decodeRow (hu : u < 8) (ho : o < unitRows.getD u 0) (k : BitVec 8) (d : Data) :
    ∃ i, decodeRow u o k d = some i := by
  interval_cases u <;> simp only [unitRows, List.getD_cons_zero, List.getD_cons_succ] at ho <;> interval_cases o <;>
    exact ⟨_, rfl⟩

end

/-! ### The decoder by the fields of the word -/

/-- A word decodes to what its row gives, the reserved field and an unused `SEL` zero (30_encoding.md R88). -/
theorem decode_eq_ok_iff {w : CmdWord} {i : Instr} :
    decode w = .ok i ↔
      decodeRow (cmdUnit w).toNat (cmdOp w).toNat (cmdSel w) (cmdData w) = some i ∧ cmdRsv w = 0 ∧
        (usesSel (cmdUnit w).toNat (cmdOp w).toNat = false → cmdSel w = 0) := by
  cases hrow : decodeRow (cmdUnit w).toNat (cmdOp w).toNat (cmdSel w) (cmdData w) with
  | none =>
    simp only [decode, hrow]
    split <;> simp
  | some j =>
    rw [decode, if_neg (Nat.not_le.2 (decodeRow_isRow hrow).unit_lt), hrow]
    dsimp only
    split_ifs with hrsv hsel
    · exact iff_of_false nofun fun ⟨_, hzero, _⟩ => hrsv hzero
    · exact iff_of_false nofun fun ⟨_, _, hunused⟩ => hsel.1 (hunused hsel.2)
    · simpa [not_not.1 hrsv] using fun _ hunused => not_not.1 fun hne => hsel ⟨hne, hunused⟩

/-- A word built from a row's fields decodes to the row's command. -/
theorem decode_cmdWord {u o : BitVec 4} {k : BitVec 8} {d : Data} {i : Instr}
    (hrow : decodeRow u.toNat o.toNat k d = some i) (hsel : usesSel u.toNat o.toNat = false → k = 0) :
    decode (cmdWord u o k d) = .ok i := by
  rw [decode_eq_ok_iff, cmdUnit_cmdWord, cmdOp_cmdWord, cmdSel_cmdWord, cmdRsv_cmdWord, cmdData_cmdWord]
  exact ⟨hrow, rfl, hsel⟩

/-- The decoder reads back every encoded command, by the operand forms of 30_encoding.md R85. -/
theorem decode_encode (i : Instr) : decode (encode i) = .ok i := by
  cases i with
  | facCfgWrite k v => exact decode_cfgWrite k v
  | facCfgRead k => exact decode_cfgRead k 0
  | facTxbufPush _ | fcRxByte _ | crcUpdate _ | crcTableRead _ | mdSetPreamble _ | mdSetPostamble _ | mdAddSymbol _
  | fcRxBit _ =>
    exact decode_cmdWord (by simp [decodeRow, decodeFac, decodeMd, decodeFc, decodeCrc]) fun _ => rfl
  | _ => exact decode_cmdWord rfl fun _ => rfl

section
variable {w : CmdWord} {i : Instr} (h : decode w = .ok i)
include h

/-- A decoded word is its encoding in every bit the decoder keeps (30_encoding.md R87). -/
theorem encode_of_decode : encode i = cmdWord (cmdUnit w) (cmdOp w) (cmdSel w) (cmdData w &&& dataMask i) := by
  obtain ⟨hrow, -, hsel⟩ := decode_eq_ok_iff.1 h
  have hselect : (if usesSel (cmdUnit w).toNat (cmdOp w).toNat then cmdSel w else 0) = cmdSel w := by
    split
    · rfl
    · next hunused => exact (hsel (Bool.eq_false_iff.2 hunused)).symm
  simpa only [BitVec.ofNat_toNat, BitVec.setWidth_eq, hselect] using (decodeRow_isRow hrow).encoded

/-- A decoded word with another `DATA` decodes to the same command, the operand aside. -/
theorem decode_withOperand (d : Data) :
    decode (cmdWord (cmdUnit w) (cmdOp w) (cmdSel w) d) = .ok (withOperand d i) := by
  obtain ⟨hrow, -, hsel⟩ := decode_eq_ok_iff.1 h
  exact decode_cmdWord ((decodeRow_isRow hrow).withOperand d) hsel

/-- A decoded command's operand is read from the word's own `DATA`. -/
theorem withOperand_cmdData : withOperand (cmdData w) i = i := by
  obtain ⟨hrow, -, -⟩ := decode_eq_ok_iff.1 h
  exact Option.some.inj (((decodeRow_isRow hrow).withOperand (cmdData w)).symm.trans hrow)

end

/-! ### Illegal words -/

/-- The word of a command is illegal exactly for its CFG index (30_encoding.md R86, last item). -/
theorem illegalWord_encode (i : Instr) : illegalWord (encode i) = !i.wellFormed := by
  cases i with
  | facCfgWrite k v => rw [Bool.eq_iff_iff]; simp [illegalWord, encode, unitRows, Instr.wellFormed]
  | facCfgRead k => rw [Bool.eq_iff_iff]; simp [illegalWord, encode, unitRows, Instr.wellFormed]
  | _ => simp [illegalWord, encode, unitRows, Instr.wellFormed]

/-- Of the cases of 30_encoding.md R86 a word that decodes can only be in the last, by its command's CFG index. -/
theorem illegalWord_of_decode {w : CmdWord} {i : Instr} (h : decode w = .ok i) : illegalWord w = !i.wellFormed := by
  obtain ⟨-, hrsv, -⟩ := decode_eq_ok_iff.1 h
  rw [← illegalWord_encode, encode_of_decode h, illegalWord, illegalWord, cmdUnit_cmdWord, cmdOp_cmdWord, cmdSel_cmdWord,
    cmdRsv_cmdWord, hrsv]

/-- The test of `SEL` in the decoder and in 30_encoding.md R86 is the same, on numbers and on fields. -/
theorem usesSel_toNat (u o : BitVec 4) :
    usesSel u.toNat o.toNat = (decide (u = 0) && (decide (o = 10) || decide (o = 11))) := by
  simp [usesSel, BitVec.toNat_eq]

/-- A word in none of the cases of 30_encoding.md R86 decodes. -/
theorem exists_decode_of_legal {w : CmdWord} (h : illegalWord w = false) : ∃ i, decode w = .ok i := by
  simp only [illegalWord, Bool.or_eq_false_iff, decide_eq_false_iff_not, not_le] at h
  obtain ⟨⟨⟨⟨⟨hunit, hop⟩, hrsv⟩, hsel⟩, -⟩, -⟩ := h
  obtain ⟨i, hrow⟩ := exists_decodeRow hunit hop (cmdSel w) (cmdData w)
  refine ⟨i, decode_eq_ok_iff.2 ⟨hrow, not_not.1 hrsv, fun hunused => ?_⟩⟩
  rw [← usesSel_toNat, hunused] at hsel
  simpa using hsel

/-- A command with a CFG index past the registers answers `ILL = 1` (60_exceptions.md R304). -/
theorem exec_illFormed {i : Instr} (h : i.wellFormed = false) (s : State) : exec i s = finish (s, respondIllegal) := by
  cases i with
  | facCfgWrite k v =>
    exact congrArg finish (facCfgWrite_illegal (by simpa [Instr.wellFormed] using h) v s)
  | facCfgRead k => exact congrArg finish (facCfgRead_illegal (by simpa [Instr.wellFormed] using h) s)
  | _ => cases h

end Sys2Proof.Machine

namespace Sys2Proof.Proofs

open Sys2Proof.Machine

/-- Settles O1, by the operand forms of 30_encoding.md R85. -/
theorem decodeReadsEveryEncodedCommand : Obligations.DecodeReadsEveryEncodedCommand := decode_encode

/-- Settles O4: each word is the encoding of its command. -/
theorem writtenOutWordsDecode : Obligations.WrittenOutWordsDecode :=
  ⟨decode_encode .facSetup, decode_encode (.txqPut 1), decode_encode (.facCfgWrite 5 20),
    decode_encode (.facDecodeProcessSample 0xFFFFFE6E), decode_encode (.mdSetPreamble 8),
    decode_encode (.dmProcessSample 0x4000), decode_encode (.crTransition 180), decode_encode .fcSendFrameBits,
    decode_encode (.crcUpdate 0x41), decode_encode .rxqCanGet⟩

/-- Settles O2: the row of a word is fixed by its other fields, and `DATA` reaches the command through its operand alone. -/
theorem decodingIgnoresUnreadData : Obligations.DecodingIgnoresUnreadData := by
  refine ⟨fun w i h => ⟨encode_of_decode h, fun d hd => ?_, fun s d hd => ⟨_, decode_withOperand h d, ?_⟩⟩,
    fun d => ⟨rfl, rfl, rfl, rfl⟩⟩
  · rw [decode_withOperand h, withOperand_congr hd, withOperand_cmdData h]
  · rw [exec_withOperand_congr hd, withOperand_cmdData h]

/-- Settles O3: a word that does not decode is answered as illegal, and so is a command with a wrong CFG index. -/
theorem illegalWordsAnswerIll : Obligations.IllegalWordsAnswerIll := by
  refine fun s => ⟨fun hillegal => ?_, fun hlegal => ?_, by decide⟩
  · rcases runCommand_cases s with ⟨i, hi, hrun⟩ | ⟨e, -, hrun⟩
    · rw [illegalWord_of_decode hi, Bool.not_eq_true'] at hillegal
      exact hrun.trans (exec_illFormed hillegal s)
    · exact hrun
  · obtain ⟨i, hi⟩ := exists_decode_of_legal hlegal
    rw [illegalWord_of_decode hi, Bool.not_eq_false'] at hlegal
    exact ⟨i, hi, hlegal, by rw [runCommand, hi]⟩

end Sys2Proof.Proofs
end

section
/-! CERTIFICATE. A step takes a command from the port that is served and runs it (20_memory.md R67, R69). -/

namespace Sys2Proof.Machine

/-! ### Taking a command -/

/-- With a port to serve the block runs the command it takes there (20_memory.md R69). -/
theorem step_serves {s : State} {p : Port} {order : List Port} (hb : s.build.valid = true) (hr : s.resetIn = .off)
    (hn : s.nextPort = some (p, order)) : step s = runCommand (s.accept p order) := by
  rw [step, if_pos hb, hr, hn]

section
variable (s : State) (p : Port) (order : List Port)

/-- Taking a command touches nothing but the ports and the latched command. -/
theorem State.accept_sameBlock : SameBlock s (s.accept p order) :=
  ⟨rfl, rfl, rfl, rfl, rfl, rfl, rfl, rfl, rfl, rfl, rfl, rfl⟩

theorem State.accept_port_same :
    (s.accept p order).port p = { pending := (s.port p).pending.tail, responses := (s.port p).responses } :=
  State.port_setPort_same s p _

theorem State.accept_port_other {q : Port} (h : q ≠ p) : (s.accept p order).port q = s.port q :=
  State.port_setPort_other s _ h

end

end Sys2Proof.Machine

namespace Sys2Proof.Proofs

open Sys2Proof.Machine

/-- Settles O5: the command taken is the one that runs. -/
theorem stepRunsTheDecodedCommand : Obligations.StepRunsTheDecodedCommand := by
  intro s p order hb hr hn
  have hword : (s.accept p order).cmdReg = (s.port p).pending.headD 0 := rfl
  refine ⟨fun i hi => ?_, fun e he => ?_, s.accept_sameBlock p order, hword, rfl, s.accept_port_same p order,
    fun q hq => s.accept_port_other p order hq, rfl, hr⟩
  · rw [step_serves hb hr hn, runCommand, hword, hi]
  · rw [step_serves hb hr hn, runCommand, hword, he]
    rfl

end Sys2Proof.Proofs
end

section
/-! CERTIFICATE. Every command ends with one response, on the port that issued it (30_encoding.md R81, 60_exceptions.md R300,
R304, R306). -/

namespace Sys2Proof.Machine

/-! ### The response word, field by field (30_encoding.md R81) -/

section
variable (r : Resp)

theorem Resp.word_v : r.word.getLsbD 63 = r.v := by
  simp only [Resp.word, BitVec.getLsbD_append]
  simp

theorem Resp.word_ill : r.word.getLsbD 62 = r.ill := by
  simp only [Resp.word, BitVec.getLsbD_append]
  simp

theorem Resp.word_zeros : r.word.extractLsb' 32 30 = 0 := by
  apply BitVec.eq_of_getLsbD_eq
  intro i hi
  simp only [Resp.word, BitVec.getLsbD_extractLsb', BitVec.getLsbD_append]
  rw [if_neg (by omega), if_pos (by omega)]
  simp

theorem Resp.word_rdata : r.word.extractLsb' 0 32 = r.rdata := by
  apply BitVec.eq_of_getLsbD_eq
  intro i hi
  simp only [Resp.word, BitVec.getLsbD_extractLsb', BitVec.getLsbD_append]
  rw [if_pos (by omega)]
  simp [hi]

end

/-! ### What a command leaves alone beside the block -/

/-- The build, the two ports and what serves them: everything of the state that no operation of a command touches before its
response. -/
structure PortView where
  build : Build
  portT : PortState
  portA : PortState
  portOrder : List Port
  resetIn : ResetInput
  serving : Port
  cmdReg : BitVec 64

/-- The ports' part of a state. -/
def State.portView (s : State) : PortView where
  build := s.build
  portT := s.portT
  portA := s.portA
  portOrder := s.portOrder
  resetIn := s.resetIn
  serving := s.serving
  cmdReg := s.cmdReg

/-! ### Updates of the block -/

section
variable (s : State)

@[simp] theorem State.setCr_portView (c : CrRegs) : (s.setCr c).portView = s.portView := rfl
@[simp] theorem State.setDm_portView (d : DmRegs) : (s.setDm d).portView = s.portView := rfl
@[simp] theorem State.setMd_portView (m : MdRegs) : (s.setMd m).portView = s.portView := rfl
@[simp] theorem State.setFac_portView (f : FacRegs) : (s.setFac f).portView = s.portView := rfl
@[simp] theorem State.setCfgErr_portView (e : Bool) : (s.setCfgErr e).portView = s.portView := rfl

@[simp] theorem State.setQueue_portView (i : QueueId) (q : QueueRegs) : (s.setQueue i q).portView = s.portView := by
  cases i <;> rfl

end

/-! ### A response -/

/-- What an operation that ends a legal command hands to `finish`: the ports as they were, and a response of `respond`
(30_encoding.md R81). -/
structure Answers (s : State) (r : State × Resp) : Prop where
  ports : r.1.portView = s.portView
  answer : ∃ v d, r.2 = respond v d

theorem answers_respond (s : State) {v : Bool} {d : Data} {t : State} (h : t.portView = s.portView) :
    Answers s (t, respond v d) :=
  ⟨h, v, d, rfl⟩

/-! ### Called operations -/

section
variable (s : State)

@[simp] theorem portView_crClear : (crClear s).1.portView = s.portView := rfl
@[simp] theorem portView_mdClear : (mdClear s).1.portView = s.portView := rfl
@[simp] theorem portView_dmClear : (dmClear s).1.portView = s.portView := rfl
@[simp] theorem portView_fcSetup : (fcSetup s).1.portView = s.portView := rfl

theorem answers_crSetup : Answers s (crSetup s) := by
  unfold crSetup; split <;> exact answers_respond s (by simp)

@[simp] theorem portView_crSetup : (crSetup s).1.portView = s.portView := (answers_crSetup s).ports

theorem answers_mdSetup : Answers s (mdSetup s) := by
  unfold mdSetup; split <;> exact answers_respond s (by simp)

@[simp] theorem portView_mdSetup : (mdSetup s).1.portView = s.portView := (answers_mdSetup s).ports

theorem answers_dmSetup : Answers s (dmSetup s) := by
  unfold dmSetup; split <;> exact answers_respond s (by simp)

@[simp] theorem portView_dmSetup : (dmSetup s).1.portView = s.portView := (answers_dmSetup s).ports

@[simp] theorem portView_mdAddSymbols (bs : List Bool) : (mdAddSymbols bs s).1.portView = s.portView := by
  rw [mdAddSymbols_frame]; rfl

@[simp] theorem portView_mdAddPreamble : (mdAddPreamble s).1.portView = s.portView := portView_mdAddSymbols s _

@[simp] theorem portView_mdAddPostamble : (mdAddPostamble s).1.portView = s.portView := portView_mdAddSymbols s _

@[simp] theorem portView_fcSendFrameBits : (fcSendFrameBits s).1.portView = s.portView :=
  portView_mdAddSymbols (s.setFc { s.fc with ones := 0 }) _

@[simp] theorem portView_dmProcess (x : Int) : (dmProcess x s).1.portView = s.portView := by
  rw [dmProcess_frame]; rfl

@[simp] theorem portView_fcRxByte (b : BitVec 8) : (fcRxByte b s).1.portView = s.portView := by
  rw [fcRxByte_frame]; rfl

@[simp] theorem portView_fcRxBit (bit : Bool) : (fcRxBit bit s).1.portView = s.portView := by
  rw [fcRxBit_frame]; rfl

@[simp] theorem portView_facDrain (k : Nat) (f : DecFlags) : (facDrain k s f).1.portView = s.portView := by
  rw [facDrain_frame]; rfl

end

/-! ### Operations that end a command -/

section
variable (s : State)

theorem answers_facSetup : Answers s (facSetup s) := by
  unfold facSetup; split <;> exact answers_respond s (by simp)

theorem answers_mdAddSymbol (b : Bool) : Answers s (mdAddSymbol b s) := by
  rcases mdAddSymbol_cases b s with ⟨-, h⟩ | ⟨-, h⟩ <;> rw [h] <;> exact answers_respond s rfl

theorem answers_mdGetSample : Answers s (mdGetSample s) := by
  rcases mdGetSample_cases s with ⟨-, h⟩ | ⟨-, -, h⟩ | ⟨-, -, h⟩ <;> rw [h] <;> exact answers_respond s rfl

theorem answers_facEncodeMessage : Answers s (facEncodeMessage s) := answers_respond s (by simp)

theorem answers_facDecodeProcessSample (x : Int) : Answers s (facDecodeProcessSample x s) :=
  answers_respond s (by simp)

theorem answers_facTxbufPush (b : BitVec 8) : Answers s (facTxbufPush b s) := by
  unfold facTxbufPush; split <;> exact answers_respond s rfl

theorem answers_facRxmsgRead (i : BitVec 32) : Answers s (facRxmsgRead i s) := by
  unfold facRxmsgRead; split <;> exact answers_respond s rfl

theorem answers_facCfgWrite {k : BitVec 8} (hk : k.toNat < 9) (v : BitVec 32) : Answers s (facCfgWrite k v s) := by
  rw [facCfgWrite_legal hk]; exact answers_respond s rfl

theorem answers_facCfgRead {k : BitVec 8} (hk : k.toNat < 10) : Answers s (facCfgRead k s) := by
  rw [facCfgRead, if_neg (Nat.not_le.2 hk)]; split <;> exact answers_respond s rfl

theorem answers_queueNthFromPut (i : QueueId) (n : BitVec 32) : Answers s (queueNthFromPut i n s) := by
  unfold queueNthFromPut; split <;> exact answers_respond s rfl

theorem answers_queueNthFromGet (i : QueueId) (n : BitVec 32) : Answers s (queueNthFromGet i n s) := by
  unfold queueNthFromGet; split <;> exact answers_respond s rfl

/-! ### Commands -/

/-- A command ends with a response of `respond`, the ports otherwise as they were. -/
def EndsAnswered (s : State) (o : Host.Outcome State Fault Refusal) : Prop := ∃ r, o = finish r ∧ Answers s r

variable {s}

theorem Answers.ends {r : State × Resp} (h : Answers s r) : EndsAnswered s (finish r) := ⟨r, rfl, h⟩

theorem endsAnswered_respond {v : Bool} {d : Data} {t : State} (h : t.portView = s.portView) :
    EndsAnswered s (finish (t, respond v d)) := ⟨_, rfl, answers_respond s h⟩

theorem endsAnswered_queuePut {i : QueueId} (h : (s.queue i).canPut (s.slots i) = true) (item : Nat) :
    EndsAnswered s (queuePut i item s) := by
  rw [queuePut, if_pos h]; exact endsAnswered_respond (by simp)

theorem endsAnswered_queueGet {i : QueueId} (h : (s.queue i).canGet = true) : EndsAnswered s (queueGet i s) := by
  rw [queueGet, if_pos h]; exact endsAnswered_respond (by simp)

/-- Every legal command that meets its queue precondition ends with a response (60_exceptions.md R300). -/
theorem endsAnswered_exec {i : Instr} (hq : queueReady i s = true) (hi : i.wellFormed = true) :
    EndsAnswered s (exec i s) := by
  cases i with
  | facSetup => exact (answers_facSetup s).ends
  | facEncodeMessage => exact (answers_facEncodeMessage s).ends
  | facEncodeGetSample => exact (answers_mdGetSample s).ends
  | facDecodeProcessSample x => exact (answers_facDecodeProcessSample s _).ends
  | facTxbufPush b => exact (answers_facTxbufPush s b).ends
  | facRxmsgRead i => exact (answers_facRxmsgRead s i).ends
  | facCfgWrite k v => exact (answers_facCfgWrite s (of_decide_eq_true hi) v).ends
  | facCfgRead k => exact (answers_facCfgRead s (of_decide_eq_true hi)).ends
  | mdSetup => exact (answers_mdSetup s).ends
  | mdAddPreamble => exact endsAnswered_respond (portView_mdAddPreamble s)
  | mdAddPostamble => exact endsAnswered_respond (portView_mdAddPostamble s)
  | mdAddSymbol b => exact (answers_mdAddSymbol s b).ends
  | mdGetSample => exact (answers_mdGetSample s).ends
  | dmSetup => exact (answers_dmSetup s).ends
  | dmProcessSample x => exact endsAnswered_respond (portView_dmProcess s _)
  | crSetup => exact (answers_crSetup s).ends
  | fcSendFrameBits => exact endsAnswered_respond (portView_fcSendFrameBits s)
  | fcRxByte b => exact endsAnswered_respond (portView_fcRxByte s b)
  | fcRxBit bit => exact endsAnswered_respond (portView_fcRxBit s bit)
  | txqPut d => exact endsAnswered_queuePut (i := .tx) hq _
  | txqGet => exact endsAnswered_queueGet (i := .tx) hq
  | txqNthFromPut n => exact (answers_queueNthFromPut s .tx n).ends
  | txqNthFromGet n => exact (answers_queueNthFromGet s .tx n).ends
  | rxqPut d => exact endsAnswered_queuePut (i := .rx) hq _
  | rxqGet => exact endsAnswered_queueGet (i := .rx) hq
  | rxqNthFromPut n => exact (answers_queueNthFromPut s .rx n).ends
  | rxqNthFromGet n => exact (answers_queueNthFromGet s .rx n).ends
  | _ => exact endsAnswered_respond rfl

/-- The response `r` is one that the command `i` may end with: `RDATA` is 0 where `V` is, and `ILL` is 1 for an ill-formed command
alone (30_encoding.md R81, R86). -/
structure Resp.Fits (i : Instr) (r : Resp) : Prop where
  no_value : r.v = false → r.rdata = 0
  ill_iff : r.ill = true ↔ i.wellFormed = false
  illegal : r.ill = true → r = respondIllegal

theorem fits_respond {i : Instr} (hi : i.wellFormed = true) (v : Bool) (d : Data) : Resp.Fits i (respond v d) where
  no_value hv := if_neg (Bool.eq_false_iff.1 hv)
  ill_iff := by simp [respond, hi]
  illegal := nofun

theorem fits_respondIllegal {i : Instr} (hi : i.wellFormed = false) : Resp.Fits i respondIllegal where
  no_value _ := rfl
  ill_iff := iff_of_true rfl hi
  illegal _ := rfl

/-- Every command that meets its queue precondition ends, and with one response (60_exceptions.md R300, R304). -/
theorem exec_ends {i : Instr} (hq : queueReady i s = true) :
    ∃ (t : State) (r : Resp), exec i s = .next (t.reply r) ∧ t.portView = s.portView ∧ Resp.Fits i r := by
  cases hi : i.wellFormed with
  | false => exact ⟨s, respondIllegal, exec_illFormed hi s, rfl, fits_respondIllegal hi⟩
  | true =>
    obtain ⟨⟨t, r⟩, hexec, hports, v, d, rfl⟩ := endsAnswered_exec hq hi
    exact ⟨t, _, hexec, hports, fits_respond hi v d⟩

/-! ### The response on its port -/

/-- The ports are among what `portView` holds. -/
theorem State.port_of_portView {t : State} (h : t.portView = s.portView) (p : Port) : t.port p = s.port p := by
  cases p with
  | tick => exact congrArg PortView.portT h
  | app => exact congrArg PortView.portA h

/-- The serving port after a response (60_exceptions.md R306). -/
theorem State.reply_port_serving (s : State) (r : Resp) :
    (s.reply r).port s.serving =
      { pending := (s.port s.serving).pending, responses := (s.port s.serving).responses ++ [r.word] } :=
  State.port_setPort_same s s.serving _

end

end Sys2Proof.Machine

namespace Sys2Proof.Proofs

open Sys2Proof.Machine

/-- Settles O11, from what every command leaves of the ports and the response it hands to `finish`. -/
theorem everyCommandEndsWithOneResponse : Obligations.EveryCommandEndsWithOneResponse := by
  intro i s hq
  obtain ⟨t, r, hexec, hports, hfits⟩ := exec_ends hq
  have hserving : t.serving = s.serving := congrArg PortView.serving hports
  have hport := State.port_of_portView hports
  refine ⟨t.reply r, r.word, hexec, ?_, fun p hp => ?_, congrArg PortView.build hports,
    congrArg PortView.portOrder hports, congrArg PortView.resetIn hports, hserving, congrArg PortView.cmdReg hports,
    r.word_zeros, ?_, ?_, ?_⟩
  · rw [← hserving, State.reply_port_serving, hport]
  · rw [State.reply_port_other t r (hserving ▸ hp), hport]
  · rw [Resp.word_v, Resp.word_rdata]
    exact hfits.no_value
  · rw [Resp.word_ill]
    exact hfits.ill_iff
  · rw [Resp.word_ill]
    exact fun hill => by rw [hfits.illegal hill]; decide

end Sys2Proof.Proofs
end

section
/-! CERTIFICATE. What each command of UNIT 6 and UNIT 7 answers and leaves (40_queue.md R101 to R108): one lemma per operation
and outcome, for either instance (R110), then both instances of each. -/

namespace Sys2Proof.Machine

/-! ### Answers as 32-bit words -/

/-- A condition as a 32-bit answer (40_queue.md R101, R103). -/
theorem bit32_decide (p : Prop) [Decidable p] : bit32 (decide p) = if p then 1 else 0 := by
  split
  · next h => rw [decide_eq_true h]; rfl
  · next h => rw [decide_eq_false h]; rfl

/-- A remainder as a 32-bit answer. With `m = 0` a remainder can be negative, and the two sides then differ. -/
theorem zext32_imod {a : Int} {m : Nat} (h : 0 ≤ a % (m : Int)) : zext32 (imod a m) = BitVec.ofInt 32 (a % (m : Int)) := by
  rw [zext32, imod, ← BitVec.ofInt_natCast, Int.toNat_of_nonneg h]

/-- With the default `Q_ITEM_BITS` an item operand is the lowest bit of `DATA` (40_queue.md R102). -/
theorem mod_two_pow_one_eq_bit (d : Data) : d.toNat % 2 ^ 1 = (d.getLsbD 0).toNat := by
  rw [pow_one, BitVec.getLsbD, Nat.toNat_testBit, pow_zero, Nat.div_one]

section
variable (i : QueueId) {s : State}

/-! ### The observers -/

/-- Q.CAN_PUT answers 1 exactly with a slot to spare (40_queue.md R101). -/
theorem queueCanPut_eq (s : State) :
    queueCanPut i s =
      (s, respond true (if ((s.queue i).put + 1) % s.slots i ≠ (s.queue i).get then 1 else 0)) := by
  rw [queueCanPut, QueueRegs.canPut, bit32_decide]

/-- Q.CAN_GET answers 1 exactly while the queue holds an item (40_queue.md R103). -/
theorem queueCanGet_eq (s : State) :
    queueCanGet i s = (s, respond true (if (s.queue i).put ≠ (s.queue i).get then 1 else 0)) := by
  rw [queueCanGet, QueueRegs.canGet, bit32_decide]

/-- Q.COUNT answers `(put - get) mod N`, also with `put < get` (40_queue.md R106). -/
theorem queueCount_eq (h : 0 < s.slots i) :
    queueCount i s =
      (s, respond true (BitVec.ofInt 32 ((((s.queue i).put : Int) - (s.queue i).get) % (s.slots i : Int)))) := by
  rw [queueCount, QueueRegs.count, zext32_imod (Int.emod_nonneg _ (by omega))]

/-- A queue of `N` slots never counts more than `N - 1` items (40_queue.md R106). -/
theorem QueueRegs.count_le {n : Nat} (q : QueueRegs) (h : 0 < n) : q.count n ≤ n - 1 :=
  Nat.le_sub_one_of_lt (imod_lt _ h)

/-! ### PUT, GET and CLEAR -/

/-- With room, PUT writes the slot at `put` alone and advances `put` (40_queue.md R102). -/
theorem queuePut_room (item : Nat) (hwf : Memory.wf (s.queue i).slot = true)
    (hroom : ((s.queue i).put + 1) % s.slots i ≠ (s.queue i).get) :
    ∃ slot, queuePut i item s =
        .next ((s.setQueue i ⟨((s.queue i).put + 1) % s.slots i, (s.queue i).get, slot⟩).reply (respond true 0)) ∧
      Memory.read slot (s.queue i).put = item ∧
      ∀ j, j ≠ (s.queue i).put → Memory.read slot j = Memory.read (s.queue i).slot j :=
  ⟨Memory.write (s.queue i).slot (s.queue i).put item, if_pos ((QueueRegs.canPut_iff _ _).2 hroom),
    Memory.read_write_same hwf _ _, fun _ hj => Memory.read_write_other _ _ hj⟩

/-- On a full queue PUT faults (40_queue.md R102). -/
theorem queuePut_full (item : Nat) (hfull : ((s.queue i).put + 1) % s.slots i = (s.queue i).get) :
    queuePut i item s = .fault (.queuePutFull s.cmdReg s.serving) :=
  if_neg fun hroom => (QueueRegs.canPut_iff _ _).1 hroom hfull

/-- With an item, GET answers the slot at `get` and advances `get` (40_queue.md R104). -/
theorem queueGet_item (hitem : (s.queue i).put ≠ (s.queue i).get) :
    queueGet i s =
      .next ((s.setQueue i ⟨(s.queue i).put, ((s.queue i).get + 1) % s.slots i, (s.queue i).slot⟩).reply
        (respond true (BitVec.ofNat 32 (Memory.read (s.queue i).slot (s.queue i).get)))) :=
  if_pos ((QueueRegs.canGet_iff _).2 hitem)

/-- On an empty queue GET faults (40_queue.md R104). -/
theorem queueGet_empty (hempty : (s.queue i).put = (s.queue i).get) :
    queueGet i s = .fault (.queueGetEmpty s.cmdReg s.serving) :=
  if_neg fun hitem => (QueueRegs.canGet_iff _).1 hitem hempty

/-- CLEAR sets both cursors to 0 and leaves the slots (40_queue.md R105). -/
theorem queueClear_eq (s : State) :
    queueClear i s = (s.setQueue i ⟨0, 0, (s.queue i).slot⟩, respond true 0) := rfl

/-! ### The lookups -/

section
variable {n : Data}

/-- At or past the count NTH_FROM_PUT is invalid (40_queue.md R107). -/
theorem queueNthFromPut_invalid (h : (s.queue i).count (s.slots i) ≤ n.toNat) :
    queueNthFromPut i n s = (s, respond false 0) :=
  if_pos h

/-- At or past the count NTH_FROM_GET is invalid (40_queue.md R108). -/
theorem queueNthFromGet_invalid (h : (s.queue i).count (s.slots i) ≤ n.toNat) :
    queueNthFromGet i n s = (s, respond false 0) :=
  if_pos h

/-- Below the count the slot of NTH_FROM_PUT is no negative number, even for `N = 0`, where the count is `put - get`. -/
theorem QueueRegs.nthFromPut_nonneg {q : QueueRegs} {m k : Nat} (h : k < q.count m) :
    0 ≤ ((q.put : Int) - 1 - k) % (m : Int) := by
  rcases Nat.eq_zero_or_pos m with rfl | hm
  · simp only [QueueRegs.count, imod, Nat.cast_zero, Int.emod_zero] at h ⊢
    omega
  · exact Int.emod_nonneg _ (by omega)

/-- Below the count NTH_FROM_PUT answers the slot that many before the newest item's (40_queue.md R107). -/
theorem queueNthFromPut_valid (h : n.toNat < (s.queue i).count (s.slots i)) :
    queueNthFromPut i n s =
      (s, respond true (BitVec.ofInt 32 ((((s.queue i).put : Int) - 1 - n.toNat) % (s.slots i : Int)))) := by
  rw [queueNthFromPut, if_neg (Nat.not_le.2 h), zext32_imod (QueueRegs.nthFromPut_nonneg h)]

/-- Below the count NTH_FROM_GET answers the slot that many after the oldest item's (40_queue.md R108). -/
theorem queueNthFromGet_valid (h : n.toNat < (s.queue i).count (s.slots i)) :
    queueNthFromGet i n s =
      (s, respond true (BitVec.ofInt 32 ((((s.queue i).get : Int) + n.toNat) % (s.slots i : Int)))) := by
  rw [queueNthFromGet, if_neg (Nat.not_le.2 h), zext32, ← BitVec.ofInt_natCast, Int.natCast_emod, Int.natCast_add]

end

end

end Sys2Proof.Machine

namespace Sys2Proof.Proofs

open Sys2Proof.Machine

/-- Settles O13, from what the three observers answer on either queue. -/
theorem queueObserversReportOccupancy : Obligations.QueueObserversReportOccupancy := by
  intro s d
  refine ⟨?_, ?_, ?_, ?_, ?_, ?_, congrArg finish (queueCanPut_eq .tx s), congrArg finish (queueCanPut_eq .rx s),
    congrArg finish (queueCanGet_eq .tx s), congrArg finish (queueCanGet_eq .rx s),
    fun h => congrArg finish (queueCount_eq .tx h), fun h => congrArg finish (queueCount_eq .rx h),
    s.txq.count_le, s.rxq.count_le⟩
  all_goals exact decode_cmdWord rfl fun _ => rfl

/-- Settles O14, from PUT with room and PUT on a full queue. -/
theorem queuePutStoresAtTheTail : Obligations.QueuePutStoresAtTheTail := fun s d =>
  ⟨decode_cmdWord rfl fun _ => rfl, decode_cmdWord rfl fun _ => rfl, fun h => h ▸ mod_two_pow_one_eq_bit d, rfl,
    queuePut_room .tx (operandItem s.build d), queuePut_room .rx (operandItem s.build d),
    queuePut_full .tx (operandItem s.build d), queuePut_full .rx (operandItem s.build d)⟩

/-- Settles O15, from GET with an item and GET on an empty queue. -/
theorem queueGetRemovesTheHead : Obligations.QueueGetRemovesTheHead := fun _ _ =>
  ⟨decode_cmdWord rfl fun _ => rfl, decode_cmdWord rfl fun _ => rfl, queueGet_item .tx, queueGet_item .rx,
    queueGet_empty .tx, queueGet_empty .rx⟩

/-- Settles O16, from what CLEAR leaves of either queue. -/
theorem queueClearResetsBothCursors : Obligations.QueueClearResetsBothCursors := fun s _ =>
  ⟨decode_cmdWord rfl fun _ => rfl, decode_cmdWord rfl fun _ => rfl, congrArg finish (queueClear_eq .tx s),
    congrArg finish (queueClear_eq .rx s)⟩

/-- Settles O17, by whether `n` is below the count. -/
theorem queueLookupsNameTheSlot : Obligations.QueueLookupsNameTheSlot := by
  intro s n
  refine ⟨?_, ?_, ?_, ?_,
    fun h => ⟨congrArg finish (queueNthFromPut_invalid .tx h), congrArg finish (queueNthFromGet_invalid .tx h)⟩,
    fun h => ⟨congrArg finish (queueNthFromPut_valid .tx h), congrArg finish (queueNthFromGet_valid .tx h)⟩,
    fun h => ⟨congrArg finish (queueNthFromPut_invalid .rx h), congrArg finish (queueNthFromGet_invalid .rx h)⟩,
    fun h => ⟨congrArg finish (queueNthFromPut_valid .rx h), congrArg finish (queueNthFromGet_valid .rx h)⟩⟩
  all_goals exact decode_cmdWord rfl fun _ => rfl

end Sys2Proof.Proofs
end

section
/-! CERTIFICATE. The clock-recovery commands (41_clock_recovery.md R121 to R128): an accepted transition by whether it fills
the history, the decision against an edge, and CR.TRANSITION by outcome. -/

namespace Sys2Proof.Machine

/-! ### An accepted transition -/

section
variable (n : Nat) (c : CrRegs) (t iv : BitVec 32)

/-- An accepted transition that leaves the history short of its depth moves no edge (41_clock_recovery.md R125, R126). -/
theorem CrRegs.acceptTransition_filling (h : (pushHist n c.hist ⟨t, iv⟩).length ≠ n) :
    c.acceptTransition n t iv =
      { c with edge := some (c.edge.getD (c.seedEdge t iv)), hist := pushHist n c.hist ⟨t, iv⟩ } :=
  if_neg h

/-- An accepted transition that leaves the history full re-estimates the edge (41_clock_recovery.md R127). -/
theorem CrRegs.acceptTransition_full (h : (pushHist n c.hist ⟨t, iv⟩).length = n) :
    c.acceptTransition n t iv =
      ({ c with hist := pushHist n c.hist ⟨t, iv⟩ } : CrRegs).recompute n (c.edge.getD (c.seedEdge t iv)) :=
  if_pos h

end

/-- Pushing by whether the new length fits the depth (41_clock_recovery.md R126). -/
theorem pushHist_eq (n : Nat) (h : List Transition) (r : Transition) :
    pushHist n h r = if h.length + 1 ≤ n then h ++ [r] else (h ++ [r]).drop 1 := by
  rw [pushHist, List.length_append, List.length_singleton]
  simp only [← Nat.not_lt, ite_not]

/-- A pushed history holds old records and the new one only (41_clock_recovery.md R126). -/
theorem mem_of_mem_pushHist {n : Nat} {h : List Transition} {r x : Transition} (hx : x ∈ pushHist n h r) :
    x ∈ h ∨ x = r := by
  have hmem : x ∈ h ++ [r] := by
    unfold pushHist at hx
    split at hx
    · exact List.mem_of_mem_drop hx
    · exact hx
  simpa using hmem

/-! ### Positions and the decision -/

section
variable {c : CrRegs} {t : BitVec 32} {e : Nat}

/-- A position in the symbol as an integer (41_clock_recovery.md R120). -/
theorem CrRegs.pos_cast (hsps : 0 < c.sps) : (c.pos e t : Int) = ((t.toNat : Int) - e) % (c.sps : Int) :=
  imod_cast _ hsps

/-- The mean offset as an integer (41_clock_recovery.md R127). -/
theorem CrRegs.meanOffset_cast (n : Nat) (hsps : 0 < c.sps) :
    (c.meanOffset n e : Int) = (c.hist.map fun r => ((r.t.toNat : Int) - e) % (c.sps : Int)).sum / (n : Int) := by
  have hpos : (fun r : Transition => (c.pos e r.t : Int)) = fun r => ((r.t.toNat : Int) - e) % (c.sps : Int) :=
    funext fun _ => CrRegs.pos_cast hsps
  rw [CrRegs.meanOffset, Int.natCast_ediv, Nat.cast_list_sum, List.map_map, ← hpos]
  rfl

/-- The tolerance window on an interval (41_clock_recovery.md R120). -/
theorem CrRegs.inTol_iff (iv : BitVec 32) :
    c.inTol iv = true ↔ c.tolLo.toNat * c.sps ≤ 100 * iv.toNat ∧ 100 * iv.toNat ≤ c.tolHi.toNat * c.sps := by
  simp [CrRegs.inTol]

/-- The centre window on a position (41_clock_recovery.md R120). -/
theorem CrRegs.inCentre_iff (p : Nat) :
    c.inCentre p = true ↔ c.cwLo.toNat * c.sps ≤ 100 * p ∧ 100 * p ≤ c.cwHi.toNat * c.sps := by
  simp [CrRegs.inCentre]

/-- The centre window on a transition's position, in integers (41_clock_recovery.md R128). -/
theorem CrRegs.inCentre_pos_iff (hsps : 0 < c.sps) :
    c.inCentre (c.pos e t) = true ↔
      (c.cwLo.toNat : Int) * c.sps ≤ 100 * (((t.toNat : Int) - e) % (c.sps : Int)) ∧
      100 * (((t.toNat : Int) - e) % (c.sps : Int)) ≤ (c.cwHi.toNat : Int) * c.sps := by
  rw [CrRegs.inCentre_iff, ← CrRegs.pos_cast hsps]
  norm_cast

/-- With an edge the decision is the centre window (41_clock_recovery.md R128). -/
theorem CrRegs.decides_of_edge (h : c.edge = some e) : c.decides t = c.inCentre (c.pos e t) := by
  rw [CrRegs.decides, h]

/-- Without an edge nothing is decided (41_clock_recovery.md R128). -/
theorem CrRegs.decides_of_no_edge (h : c.edge = none) : c.decides t = false := by
  rw [CrRegs.decides, h]

end

/-! ### CR.TRANSITION by outcome -/

/-- The answer to an accepted transition (41_clock_recovery.md R123). -/
theorem CrResult.rdata_accepted (d rejected : Bool) :
    CrResult.rdata { d := d, acc := true, rejected := rejected } = if d then 3 else 2 := by
  cases d <;> rfl

/-- The answer to a rejected transition (41_clock_recovery.md R123). -/
theorem CrResult.rdata_rejected (d rejected : Bool) :
    CrResult.rdata { d := d, acc := false, rejected := rejected } = if d then 1 else 0 := by
  cases d <;> rfl

/-- The word that answers a transition carries the decision in its lowest bit (41_clock_recovery.md R123). -/
theorem CrResult.word_decision (r : CrResult) : (respond true r.rdata).word.getLsbD 0 = r.d := by
  change (respond true (bitsData [r.d, r.acc])).word.getLsbD 0 = r.d
  cases r.d <;> cases r.acc <;> decide

/-- An event that does not happen leaves the state. -/
theorem State.eventIf_false (s : State) (e : Event) : s.eventIf false e = s := by
  simp [State.eventIf]

section
variable {s : State} {t : BitVec 32}

/-- CR.TRANSITION is the transition on the registers, its event and its answer (41_clock_recovery.md R123). -/
theorem exec_crTransition_eq (s : State) (t : BitVec 32) :
    exec (.crTransition t) s =
      .next (((s.setCr (s.cr.transition s.build.histN t).1).eventIf (s.cr.transition s.build.histN t).2.rejected
        .crReject).reply (respond true (s.cr.transition s.build.histN t).2.rdata)) := rfl

/-- The first transition after CR.CLEAR primes (41_clock_recovery.md R123, step 1). -/
theorem exec_crTransition_prime (hv : s.cr.lastValid = false) :
    exec (.crTransition t) s =
      .next ((s.setCr { s.cr with lastValid := true, lastT := t }).reply (respond true 0)) := by
  rw [exec_crTransition_eq, CrRegs.transition_prime _ _ _ hv]
  dsimp only
  rw [State.eventIf_false]
  rfl

/-- A transition out of tolerance is an event and changes `CR.lastT` alone (41_clock_recovery.md R124). -/
theorem exec_crTransition_reject (hv : s.cr.lastValid = true) (ht : s.cr.inTol (t - s.cr.lastT) = false) :
    exec (.crTransition t) s =
      .next (((s.setCr { s.cr with lastT := t }).event .crReject).reply
        (respond true (if s.cr.decides t then 1 else 0))) := by
  rw [exec_crTransition_eq, CrRegs.transition_reject _ _ _ hv ht, CrResult.rdata_rejected]
  rfl

/-- A transition in tolerance is tracked, then decided (41_clock_recovery.md R123, steps 3 and 4). -/
theorem exec_crTransition_accept (hv : s.cr.lastValid = true) (ht : s.cr.inTol (t - s.cr.lastT) = true) {c : CrRegs}
    (hc : ({ s.cr with lastT := t } : CrRegs).acceptTransition s.build.histN t (t - s.cr.lastT) = c) :
    exec (.crTransition t) s =
      .next ((s.setCr c).reply (respond true (if c.decides t then 3 else 2))) := by
  rw [exec_crTransition_eq, CrRegs.transition_accept _ _ _ hv ht, CrResult.rdata_accepted, hc]
  dsimp only
  rw [State.eventIf_false]

/-- The edge that an accepted transition starts from: the one there is, or the seeded one (41_clock_recovery.md R125). -/
theorem CrRegs.startEdge_eq {c : CrRegs} {iv : BitVec 32} {e : Nat} (hsps : 0 < c.sps)
    (he : (e : Int) = match c.edge with
      | none => ((t.toNat : Int) - (iv.toNat / 2 : Nat)) % (c.sps : Int)
      | some e => e) :
    c.edge.getD (c.seedEdge t iv) = e := by
  cases hedge : c.edge with
  | none =>
    rw [hedge] at he
    exact Int.natCast_inj.1 ((imod_cast _ hsps).trans he.symm)
  | some e' =>
    rw [hedge] at he
    exact (Int.natCast_inj.1 he).symm

/-- The edge that re-estimation moves to, by the mean offset in integers (41_clock_recovery.md R127). -/
theorem CrRegs.recompute_edge_eq {c : CrRegs} {n e mco e' : Nat} (hsps : 0 < c.sps)
    (hmco : (mco : Int) = (c.hist.map fun r => ((r.t.toNat : Int) - e) % (c.sps : Int)).sum / (n : Int))
    (he' : (e' : Int) = ((e : Int) + mco - (c.sps / 2 : Nat)) % (c.sps : Int)) :
    imod ((e : Int) + c.meanOffset n e - (c.sps / 2 : Nat)) c.sps = e' := by
  rw [← CrRegs.meanOffset_cast n hsps] at hmco
  rw [← Int.natCast_inj, imod_cast _ hsps, he', hmco]

end

end Sys2Proof.Machine

namespace Sys2Proof.Proofs

open Sys2Proof.Machine

/-- Settles O42, by whether the configuration is valid. -/
theorem clockRecoverySetupAndClear : Obligations.ClockRecoverySetupAndClear := by
  refine fun s d => ⟨decode_cmdWord rfl fun _ => rfl, decode_cmdWord rfl fun _ => rfl, ?_, fun hinvalid => ?_, rfl⟩
  · rintro sps rfl hvalid
    exact congrArg finish (crSetup_valid hvalid)
  · exact congrArg finish (crSetup_invalid (Bool.eq_false_iff.1 hinvalid))

/-- Settles O43, from CR.TRANSITION by outcome and an accepted transition by whether it fills the history. -/
theorem transitionsAreGatedPushedAndDecided : Obligations.TransitionsAreGatedPushedAndDecided := by
  refine ⟨fun d => decode_cmdWord rfl fun _ => rfl, ?_⟩
  rintro s t iv decided - rfl hsps hdecided
  have hcentre : ∀ e, s.cr.inCentre (s.cr.pos e t) = decided e := fun e =>
    Bool.eq_iff_iff.2 ((CrRegs.inCentre_pos_iff hsps).trans (hdecided e).symm)
  refine ⟨exec_crTransition_prime, fun hv htol => ?_, fun e h hv hlo hhi he hh => ?_⟩
  · rw [exec_crTransition_reject hv (Bool.eq_false_iff.2 fun hin => htol ((CrRegs.inTol_iff _).1 hin))]
    cases hedge : s.cr.edge with
    | none => rw [CrRegs.decides_of_no_edge hedge]; rfl
    | some e => rw [CrRegs.decides_of_edge hedge, hcentre]
  · have htol := (CrRegs.inTol_iff (c := s.cr) (t - s.cr.lastT)).2 ⟨hlo, hhi⟩
    have hstart := CrRegs.startEdge_eq hsps he
    rw [← pushHist_eq] at hh
    refine ⟨fun hfilling => ?_, fun mco e' hfull hmco he' => ?_⟩
    · have haccept := CrRegs.acceptTransition_filling s.build.histN { s.cr with lastT := t } t (t - s.cr.lastT)
        (hh ▸ hfilling)
      rw [exec_crTransition_accept hv htol haccept, CrRegs.decides_of_edge rfl, ← hcentre, hh, ← hstart]
      rfl
    · have haccept := CrRegs.acceptTransition_full s.build.histN { s.cr with lastT := t } t (t - s.cr.lastT)
        (hh ▸ hfull)
      have hedge := CrRegs.recompute_edge_eq (c := { s.cr with lastT := t, hist := h }) hsps hmco he'
      rw [exec_crTransition_accept hv htol haccept, CrRegs.decides_of_edge rfl, ← hcentre, ← hedge, hh, ← hstart]
      rfl

end Sys2Proof.Proofs
end

section
/-! CERTIFICATE. On a jitter-free Manchester stream the tracker locks and stays locked (41_clock_recovery.md R130). The edge
half a symbol before the centres is where the first interval of one symbol seeds it, and where every mean offset leaves it. -/

namespace Sys2Proof.Machine

/-! ### A run of transitions -/

/-- Transitions processed one by one on the registers: the registers after them and what each told (41_clock_recovery.md
R123). -/
def CrRegs.track (n : Nat) : CrRegs → List (BitVec 32) → CrRegs × List CrResult
  | c, [] => (c, [])
  | c, t :: ts =>
    (((c.transition n t).1.track n ts).1, (c.transition n t).2 :: ((c.transition n t).1.track n ts).2)

/-- Commands CR.TRANSITION one after another track their transitions and answer each on the serving port. -/
theorem execAll_crTransition (ts : List (BitVec 32)) (s : State) :
    ∃ u : State, execAll (ts.map Instr.crTransition) s = .next u ∧
      u.cr = (s.cr.track s.build.histN ts).1 ∧
      (u.port s.serving).responses = (s.port s.serving).responses ++
        (s.cr.track s.build.histN ts).2.map fun r => (respond true r.rdata).word := by
  induction ts generalizing s with
  | nil => exact ⟨s, rfl, rfl, (List.append_nil _).symm⟩
  | cons t ts ih =>
    obtain ⟨u, hrun, hcr, hport⟩ := ih ((crTransition t s).1.reply (respond true (crTransition t s).2.rdata))
    refine ⟨u, hrun, hcr, hport.trans ?_⟩
    rw [State.reply_serving, State.reply_responses, List.append_assoc]
    rfl

/-! ### Arithmetic of sample counts -/

/-- The interval between two sample counts, cut or not (41_clock_recovery.md R123, step 2). -/
theorem ofNat_add_sub_ofNat (m k : Nat) : BitVec.ofNat 32 (m + k) - BitVec.ofNat 32 m = BitVec.ofNat 32 k := by
  rw [BitVec.ofNat_add, BitVec.add_comm, BitVec.add_sub_cancel]

/-- A position moves on with the sample count (41_clock_recovery.md R120). -/
theorem CrRegs.pos_ofNat_add {c : CrRegs} {e m k : Nat} (hsps : 0 < c.sps) (hm : m + k < 2 ^ 32) :
    c.pos e (BitVec.ofNat 32 (m + k)) = (c.pos e (BitVec.ofNat 32 m) + k) % c.sps := by
  rw [← Int.natCast_inj, Int.natCast_emod, Int.natCast_add, CrRegs.pos_cast hsps, CrRegs.pos_cast hsps,
    BitVec.toNat_ofNat, BitVec.toNat_ofNat, Nat.mod_eq_of_lt hm, Nat.mod_eq_of_lt (by omega), Int.emod_add_emod]
  congr 1
  push_cast
  ring

/-! ### The windows of R130 -/

/-- The symbol length is even, the tolerance window holds one symbol and not half of one, the centre window holds the centre
and not the boundary (41_clock_recovery.md R130). -/
structure CrRegs.Separates (c : CrRegs) : Prop where
  two_le : 2 ≤ c.sps
  even : c.sps % 2 = 0
  half_lt_tolLo : 50 < c.tolLo.toNat
  tolLo_le : c.tolLo.toNat ≤ 100
  le_tolHi : 100 ≤ c.tolHi.toNat
  cwLo_pos : 0 < c.cwLo.toNat
  cwLo_le : c.cwLo.toNat ≤ 50
  le_cwHi : 50 ≤ c.cwHi.toNat

section
variable {c : CrRegs} (h : c.Separates)
include h

theorem CrRegs.Separates.half_add_half : c.sps / 2 + c.sps / 2 = c.sps := by
  have := h.even; omega

/-- An interval of one symbol is in tolerance. -/
theorem CrRegs.Separates.inTol_symbol {iv : BitVec 32} (hiv : iv.toNat = c.sps) : c.inTol iv = true := by
  rw [CrRegs.inTol_iff, hiv]
  exact ⟨Nat.mul_le_mul_right _ h.tolLo_le, Nat.mul_le_mul_right _ h.le_tolHi⟩

/-- An interval of half a symbol is out of tolerance. -/
theorem CrRegs.Separates.inTol_half {iv : BitVec 32} (hiv : iv.toNat = c.sps / 2) : c.inTol iv = false := by
  have hlong : 50 * c.sps < c.tolLo.toNat * c.sps :=
    Nat.mul_lt_mul_of_pos_right h.half_lt_tolLo (by have := h.two_le; omega)
  have hhalf := h.half_add_half
  refine Bool.eq_false_iff.2 fun hin => ?_
  obtain ⟨hlo, -⟩ := (CrRegs.inTol_iff iv).1 hin
  omega

/-- The centre of a symbol is decided 1. -/
theorem CrRegs.Separates.inCentre_half : c.inCentre (c.sps / 2) = true := by
  have hlo := Nat.mul_le_mul_right c.sps h.cwLo_le
  have hhi := Nat.mul_le_mul_right c.sps h.le_cwHi
  have hhalf := h.half_add_half
  rw [CrRegs.inCentre_iff]
  omega

/-- A symbol boundary is decided 0. -/
theorem CrRegs.Separates.inCentre_boundary : c.inCentre 0 = false := by
  have hlo : 0 < c.cwLo.toNat * c.sps := Nat.mul_pos h.cwLo_pos (by have := h.two_le; omega)
  refine Bool.eq_false_iff.2 fun hin => ?_
  obtain ⟨hin, -⟩ := (CrRegs.inCentre_iff 0).1 hin
  omega

end

/-! ### Centred records keep the edge -/

/-- Centred records have the symbol centre as their mean offset (41_clock_recovery.md R127). -/
theorem CrRegs.meanOffset_of_centred {n : Nat} {c : CrRegs} {e : Nat} (hn : 1 ≤ n) (hfull : c.hist.length = n)
    (hcentred : ∀ r ∈ c.hist, c.pos e r.t = c.sps / 2) : c.meanOffset n e = c.sps / 2 := by
  rw [CrRegs.meanOffset, List.map_congr_left hcentred, List.map_const', List.sum_replicate, hfull, smul_eq_mul,
    Nat.mul_div_cancel_left _ hn]

/-- An accepted transition at a symbol centre against the edge `e` leaves the edge at `e` (41_clock_recovery.md R125 to
R127). -/
theorem CrRegs.acceptTransition_of_centred {n : Nat} {c : CrRegs} {e : Nat} {t iv : BitVec 32} (hn : 1 ≤ n)
    (hstart : c.edge.getD (c.seedEdge t iv) = e) (he : e < c.sps)
    (hcentred : ∀ r ∈ pushHist n c.hist ⟨t, iv⟩, c.pos e r.t = c.sps / 2) :
    ∃ est, c.acceptTransition n t iv =
      { c with edge := some e, hist := pushHist n c.hist ⟨t, iv⟩, spsEst := est } := by
  by_cases hfull : (pushHist n c.hist ⟨t, iv⟩).length = n
  · have hmean := CrRegs.meanOffset_of_centred (c := { c with hist := pushHist n c.hist ⟨t, iv⟩ }) hn hfull hcentred
    have hedge : imod ((e : Int) + (c.sps / 2 : Nat) - (c.sps / 2 : Nat)) c.sps = e := by
      rw [Int.add_sub_cancel, imod_natCast, Nat.mod_eq_of_lt he]
    rw [CrRegs.acceptTransition_full _ _ _ _ hfull, hstart, CrRegs.recompute, hmean, hedge]
    exact ⟨_, rfl⟩
  · rw [CrRegs.acceptTransition_filling _ _ _ _ hfull, hstart]
    exact ⟨_, rfl⟩

/-! ### The tracker between two transitions of the stream -/

/-- The tracker is primed and consistent with the edge `e`: its last transition, at the sample count `m`, lies `p` samples
past it, and every record lies at a symbol centre. -/
structure CrAligned (c : CrRegs) (sps e m p : Nat) : Prop where
  sps_eq : c.sps = sps
  windows : c.Separates
  valid : c.lastValid = true
  edge_lt : e < c.sps
  centred : ∀ r ∈ c.hist, c.pos e r.t = c.sps / 2
  lastT : c.lastT = BitVec.ofNat 32 m
  offset : c.pos e (BitVec.ofNat 32 m) = p

/-- The transition at the sample count `m` is decided `d` and leaves the tracker aligned there, with the edge set. -/
structure CrAdvances (n : Nat) (c : CrRegs) (sps e m p : Nat) (d : Bool) : Prop where
  aligned : CrAligned (c.transition n (BitVec.ofNat 32 m)).1 sps e m p
  edge : (c.transition n (BitVec.ofNat 32 m)).1.edge = some e
  decided : (c.transition n (BitVec.ofNat 32 m)).2.d = d

section
variable {n : Nat} {c : CrRegs} {sps e m p : Nat}

/-- What a transition comes to, by an equation for it. -/
theorem CrAdvances.of_transition_eq {r : CrRegs × CrResult} {d : Bool} (hr : c.transition n (BitVec.ofNat 32 m) = r)
    (haligned : CrAligned r.1 sps e m p) (hedge : r.1.edge = some e) (hd : r.2.d = d) : CrAdvances n c sps e m p d := by
  subst hr
  exact ⟨haligned, hedge, hd⟩

/-- An aligned tracker with its edge set is locked. -/
theorem CrAligned.locked (h : CrAligned c sps e m p) (hedge : c.edge = some e) : CrLocked c e :=
  ⟨h.valid, hedge, h.edge_lt, h.centred⟩

/-- The interval since the last transition (41_clock_recovery.md R123, step 2). -/
theorem CrAligned.interval_eq (h : CrAligned c sps e m p) (k : Nat) :
    BitVec.ofNat 32 (m + k) - c.lastT = BitVec.ofNat 32 k := by
  rw [h.lastT, ofNat_add_sub_ofNat]

/-- A first interval of one symbol that ends at a centre seeds the edge half a symbol before it (41_clock_recovery.md
R125). -/
theorem CrAligned.seedEdge_eq (h : CrAligned c sps e m (sps / 2)) (hm : m + sps < 2 ^ 32) :
    c.seedEdge (BitVec.ofNat 32 (m + sps)) (BitVec.ofNat 32 sps) = e := by
  obtain rfl := h.sps_eq
  have hsps : 0 < c.sps := Nat.zero_lt_of_lt h.edge_lt
  have hoffset : ((c.sps / 2 : Nat) : Int) = ((m : Int) - e) % (c.sps : Int) := by
    rw [← h.offset, CrRegs.pos_cast hsps, BitVec.toNat_ofNat, Nat.mod_eq_of_lt (by omega)]
  have hwhole : ((m + c.sps : Nat) : Int) - (c.sps / 2 : Nat) = e + c.sps * (((m : Int) - e) / (c.sps : Int) + 1) := by
    have hdivision := Int.mul_ediv_add_emod ((m : Int) - e) c.sps
    rw [hoffset, Int.mul_add]
    omega
  rw [CrRegs.seedEdge, BitVec.toNat_ofNat, BitVec.toNat_ofNat, Nat.mod_eq_of_lt hm, Nat.mod_eq_of_lt (by omega), hwhole,
    imod, Int.add_mul_emod_self_left, ← Int.natCast_emod, Int.toNat_natCast, Nat.mod_eq_of_lt h.edge_lt]

/-- One symbol after a centre comes a centre: it is accepted, sets or keeps the edge, and is decided 1. -/
theorem CrAligned.transition_symbol (h : CrAligned c sps e m (sps / 2)) (hedge : c.edge = none ∨ c.edge = some e)
    (hn : 1 ≤ n) (hm : m + sps < 2 ^ 32) :
    CrAdvances n c sps e (m + sps) (sps / 2) true := by
  have hseed := h.seedEdge_eq hm
  obtain rfl := h.sps_eq
  have htol : c.inTol (BitVec.ofNat 32 (m + c.sps) - c.lastT) = true :=
    h.windows.inTol_symbol (by rw [h.interval_eq, BitVec.toNat_ofNat, Nat.mod_eq_of_lt (by omega)])
  have hpos : c.pos e (BitVec.ofNat 32 (m + c.sps)) = c.sps / 2 := by
    have := h.windows.two_le
    rw [CrRegs.pos_ofNat_add (by omega) hm, h.offset, Nat.add_mod_right, Nat.mod_eq_of_lt (by omega)]
  have hstart : c.edge.getD (c.seedEdge (BitVec.ofNat 32 (m + c.sps)) (BitVec.ofNat 32 c.sps)) = e := by
    rcases hedge with hnone | hsome
    · rw [hnone, Option.getD_none, hseed]
    · rw [hsome, Option.getD_some]
  have hcentred : ∀ r ∈ pushHist n c.hist ⟨BitVec.ofNat 32 (m + c.sps), BitVec.ofNat 32 c.sps⟩,
      c.pos e r.t = c.sps / 2 := by
    intro r hr
    rcases mem_of_mem_pushHist hr with hold | rfl
    · exact h.centred r hold
    · exact hpos
  obtain ⟨est, haccept⟩ := CrRegs.acceptTransition_of_centred (c := { c with lastT := BitVec.ofNat 32 (m + c.sps) })
    hn hstart h.edge_lt hcentred
  have htransition := CrRegs.transition_accept n _ _ h.valid htol
  rw [h.interval_eq, haccept] at htransition
  refine .of_transition_eq htransition ⟨rfl, { h.windows with }, h.valid, h.edge_lt, hcentred, rfl, hpos⟩ rfl ?_
  rw [CrRegs.decides_of_edge rfl]
  exact (congrArg c.inCentre hpos).trans h.windows.inCentre_half

/-- Half a symbol later comes a transition that is rejected, leaves the edge alone, and is decided by where it lies. -/
theorem CrAligned.transition_half (h : CrAligned c sps e m p) (hedge : c.edge = some e) (hm : m + sps / 2 < 2 ^ 32)
    {q : Nat} (hq : (p + sps / 2) % sps = q) :
    CrAdvances n c sps e (m + sps / 2) q (c.inCentre q) := by
  obtain rfl := h.sps_eq
  have htol : c.inTol (BitVec.ofNat 32 (m + c.sps / 2) - c.lastT) = false :=
    h.windows.inTol_half (by rw [h.interval_eq, BitVec.toNat_ofNat, Nat.mod_eq_of_lt (by omega)])
  have hpos : c.pos e (BitVec.ofNat 32 (m + c.sps / 2)) = q := by
    rw [CrRegs.pos_ofNat_add (Nat.zero_lt_of_lt h.edge_lt) hm, h.offset, hq]
  refine .of_transition_eq (CrRegs.transition_reject n _ _ h.valid htol)
    ⟨rfl, { h.windows with }, h.valid, h.edge_lt, h.centred, rfl, hpos⟩ hedge ?_
  exact (CrRegs.decides_of_edge (c := { c with lastT := BitVec.ofNat 32 (m + c.sps / 2) }) hedge).trans
    (congrArg c.inCentre hpos)

/-- Half a symbol after a centre comes a boundary, decided 0 (41_clock_recovery.md R130). -/
theorem CrAligned.transition_boundary (h : CrAligned c sps e m (sps / 2)) (hedge : c.edge = some e)
    (hm : m + sps / 2 < 2 ^ 32) :
    CrAdvances n c sps e (m + sps / 2) 0 false := by
  have hwrap : (sps / 2 + sps / 2) % sps = 0 := by
    rw [← h.sps_eq, h.windows.half_add_half, Nat.mod_self]
  exact h.windows.inCentre_boundary ▸ h.transition_half hedge hm hwrap

/-- Half a symbol after a boundary comes a centre, decided 1 (41_clock_recovery.md R130). -/
theorem CrAligned.transition_centre (h : CrAligned c sps e m 0) (hedge : c.edge = some e) (hm : m + sps / 2 < 2 ^ 32) :
    CrAdvances n c sps e (m + sps / 2) (sps / 2) true := by
  have hhalf : (0 + sps / 2) % sps = sps / 2 := by
    have := h.sps_eq ▸ h.edge_lt
    rw [Nat.zero_add, Nat.mod_eq_of_lt (by omega)]
  have hcentre : c.inCentre (sps / 2) = true := h.sps_eq ▸ h.windows.inCentre_half
  exact hcentre ▸ h.transition_half hedge hm hhalf

end

/-! ### The whole stream -/

/-- Fed the transitions of `stream`, the tracker ends locked on the edge `e` and decides each as `stream` says
(41_clock_recovery.md R130). -/
structure TracksStream (n : Nat) (c : CrRegs) (sps e : Nat) (stream : List (Nat × Bool)) : Prop where
  locked : CrLocked (c.track n (stream.map fun x => BitVec.ofNat 32 x.1)).1 e
  sps_eq : (c.track n (stream.map fun x => BitVec.ofNat 32 x.1)).1.sps = sps
  decided : (c.track n (stream.map fun x => BitVec.ofNat 32 x.1)).2.map CrResult.d = stream.map Prod.snd

section
variable {n : Nat} {c : CrRegs} {sps e m : Nat}

/-- A transition decided as the stream says, before a rest that is tracked. -/
theorem TracksStream.cons {d : Bool} {stream : List (Nat × Bool)} (hd : (c.transition n (BitVec.ofNat 32 m)).2.d = d)
    (h : TracksStream n (c.transition n (BitVec.ofNat 32 m)).1 sps e stream) :
    TracksStream n c sps e ((m, d) :: stream) :=
  ⟨h.locked, h.sps_eq, congrArg₂ List.cons hd h.decided⟩

/-- From a centre on, a locked tracker decides every later centre 1 and every boundary 0, and keeps the lock. -/
theorem CrAligned.tracksStream (bounds : List Bool) (h : CrAligned c sps e m (sps / 2)) (hedge : c.edge = some e)
    (hn : 1 ≤ n) (hm : m + bounds.length * sps < 2 ^ 32) :
    TracksStream n c sps e (manchesterStream sps m bounds) := by
  induction bounds generalizing c m with
  | nil => exact ⟨h.locked hedge, h.sps_eq, rfl⟩
  | cons between bounds ih =>
    rw [List.length_cons, Nat.succ_mul] at hm
    cases between with
    | false =>
      have hsymbol := h.transition_symbol (.inr hedge) hn (by omega)
      exact .cons hsymbol.decided (ih hsymbol.aligned hsymbol.edge (by omega))
    | true =>
      have hhalves : m + sps / 2 + sps / 2 = m + sps := by
        rw [← h.sps_eq, Nat.add_assoc, h.windows.half_add_half]
      have hboundary := h.transition_boundary (n := n) hedge (by omega)
      have hcentre := hboundary.aligned.transition_centre (n := n) hboundary.edge (by omega)
      rw [hhalves] at hcentre
      exact .cons hboundary.decided (.cons hcentre.decided (ih hcentre.aligned hcentre.edge (by omega)))

/-- The first transition of a cleared tracker, at a centre, aligns it with the edge half a symbol before. -/
theorem CrAligned.of_primed (hcleared : c = c.cleared) (hwindows : c.Separates) (hm : m < 2 ^ 32) :
    CrAligned { c with lastValid := true, lastT := BitVec.ofNat 32 m } c.sps (imod ((m : Int) - (c.sps / 2 : Nat)) c.sps) m
      (c.sps / 2) where
  sps_eq := rfl
  windows := { hwindows with }
  valid := rfl
  edge_lt := imod_lt _ (by have := hwindows.two_le; omega)
  centred := by
    have hhist : c.hist = [] := congrArg CrRegs.hist hcleared
    simp [hhist]
  lastT := rfl
  offset := by
    have hsps := hwindows.two_le
    rw [← Int.natCast_inj, CrRegs.pos_cast (by dsimp only; omega), imod_cast _ (by omega), BitVec.toNat_ofNat,
      Nat.mod_eq_of_lt hm]
    dsimp only
    rw [Int.sub_emod_emod, sub_sub_cancel, ← Int.natCast_emod, Nat.mod_eq_of_lt (by omega)]

/-- A cleared tracker locks on a stream that starts at a centre and goes on with a whole symbol (41_clock_recovery.md R130). -/
theorem tracksStream_of_cleared (bounds : List Bool) (hcleared : c = c.cleared) (hwindows : c.Separates) (hn : 1 ≤ n)
    (hm : m + (bounds.length + 1) * c.sps < 2 ^ 32) :
    TracksStream n c c.sps (imod ((m : Int) - (c.sps / 2 : Nat)) c.sps)
      ((m, false) :: manchesterStream c.sps m (false :: bounds)) := by
  have hprime := CrRegs.transition_prime n c (BitVec.ofNat 32 m) (congrArg CrRegs.lastValid hcleared)
  have hprimed := CrAligned.of_primed (m := m) hcleared hwindows (by omega)
  rw [Nat.succ_mul] at hm
  have hseeded := hprimed.transition_symbol (n := n) (.inl (congrArg CrRegs.edge hcleared)) hn (by omega)
  refine .cons (congrArg (·.2.d) hprime) ?_
  rw [hprime]
  exact .cons hseeded.decided (hseeded.aligned.tracksStream bounds hseeded.edge hn (by omega))

end

end Sys2Proof.Machine

namespace Sys2Proof.Proofs

open Sys2Proof.Machine

/-- Settles O44, from the run of transitions on the registers and the stream that a cleared tracker locks on. -/
theorem clockRecoveryConverges : Obligations.ClockRecoveryConverges := by
  rintro s c bounds stream hn hsps heven hcleared hhalf htolLo htolHi hcwLo hcentre hcwHi rfl hc
  have htracks := tracksStream_of_cleared bounds hcleared
    ⟨hsps, heven, hhalf, htolLo, htolHi, hcwLo, hcentre, hcwHi⟩ hn hc
  obtain ⟨t, hrun, hcr, hport⟩ := execAll_crTransition
    (((c, false) :: manchesterStream s.cr.sps c (false :: bounds)).map fun x => BitVec.ofNat 32 x.1) s
  refine ⟨t, _, _, ?_, imod_cast _ (by omega), hcr ▸ htracks.locked, hcr ▸ htracks.sps_eq, hport, ?_⟩
  · rw [← hrun, List.map_map, List.map_cons, List.map_map]
    rfl
  · rw [List.map_map]
    exact (List.map_congr_left fun r _ => r.word_decision).trans htracks.decided

end Sys2Proof.Proofs
end

section
/-! CERTIFICATE. The demodulator (42_demodulator.md R140 to R152): the followers between their old value and their target, the
registers after one sample, DM.PROCESS_SAMPLE by outcome, and the sample counter over a run of samples. -/

namespace Sys2Proof.Machine

/-! ### Arithmetic -/

/-- The scaling shift rounds toward minus infinity (00_scope.md R10). -/
theorem asr_eq_fdiv (v : Int) (k : Nat) : asr v k = v.fdiv (2 ^ k) :=
  (Int.fdiv_eq_ediv_of_nonneg v (by positivity)).symm

/-- Two's complement of `n` bits is the balanced remainder (00_scope.md R10). -/
theorem sext_eq_bmod (n v : Nat) : sext n v = (v : Int).bmod (2 ^ n : Nat) := by
  cases n with
  | zero => simp [sext, Nat.mod_one]
  | succ k =>
    have hhalf : ((2 ^ (k + 1) : Nat) + 1 : Int) / 2 = (2 ^ k : Nat) := by rw [pow_succ]; omega
    rw [Int.bmod_def, hhalf, ← Int.natCast_emod, sext, Nat.add_sub_cancel]
    simp only [Nat.cast_lt]
    push_cast
    rfl

/-- A field of `n` bits read as two's complement differs from the value by a multiple of `2^n` (00_scope.md R10). -/
theorem two_pow_dvd_sub_sext (n v : Nat) : (2 ^ n : Int) ∣ (v : Int) - sext n v := by
  rw [sext_eq_bmod]
  exact_mod_cast Int.dvd_self_sub_bmod (x := (v : Int)) (m := 2 ^ n)

/-- With the default `SAMPLE_BITS` a sample operand is `sext_16(cmd.data[15:0])` (20_memory.md R64). -/
theorem operandSample_default (d : Data) : operandSample {} d = (d.extractLsb' 0 16).toInt := by
  have hfield : d.extractLsb' 0 16 = BitVec.ofNat 16 d.toNat := BitVec.eq_of_toNat_eq (by simp)
  rw [hfield, BitVec.toInt_ofNat']
  exact sext_eq_bmod 16 d.toNat

/-! ### DM.SETUP -/

/-- What DM.SETUP loads and clears with a valid configuration (42_demodulator.md R140). -/
theorem dmSetup_loads {s : State} (h : s.cfg.valid = true) :
    dmSetup s =
      ((((s.setCfgErr false).setDm ({ s.dm with man := s.cfg.manchester }.cleared s.build.majW)).setCr
        (s.cr.configure s.cfg).cleared).clearRxq, respond true 0) := by
  rw [dmSetup_valid h, crSetup_valid (s := s.setDm { s.dm with man := s.cfg.manchester }) h]
  rfl

/-! ### The followers (42_demodulator.md R145 to R147, R152) -/

theorem min_le_approach (v target k : Nat) : min v target ≤ approach v target k := by
  have hcast := approach_cast v target k
  rcases le_total (v : Int) target with h | h
  · have := asr_nonneg (v := (target : Int) - v) k (by omega); omega
  · have := le_asr (v := (target : Int) - v) k (by omega); omega

theorem le_recede {v target : Nat} (k : Nat) (h : target ≤ v) : target ≤ recede v target k := by
  have hcast := recede_cast k h
  have := asr_le (v := (v : Int) - target) k (by omega); omega

/-- A value that follows its target never passes it (42_demodulator.md R152). -/
theorem approach_between (v target k : Nat) :
    min v target ≤ approach v target k ∧ approach v target k ≤ max v target :=
  ⟨min_le_approach v target k, approach_le_max v target k⟩

/-- A value that moves down to its target never passes it (42_demodulator.md R152). -/
theorem recede_between {v target : Nat} (k : Nat) (h : target ≤ v) :
    min v target ≤ recede v target k ∧ recede v target k ≤ max v target :=
  ⟨min_le_of_right_le (le_recede k h), le_max_of_le_left (recede_le k h)⟩

/-- A follower's step as 42_demodulator.md R145 writes it. -/
theorem approach_eq_add_fdiv (v target k : Nat) :
    (approach v target k : Int) = v + ((target : Int) - v).fdiv (2 ^ k) := by
  rw [approach_cast, asr_eq_fdiv]

/-- A mark's step down as 42_demodulator.md R146 and R147 write it. -/
theorem recede_eq_sub_fdiv {v target : Nat} (k : Nat) (h : target ≤ v) :
    (recede v target k : Int) = v - ((v : Int) - target).fdiv (2 ^ k) := by
  rw [recede_cast k h, asr_eq_fdiv]

/-- The high mark never passes the envelope (42_demodulator.md R146, R152). -/
theorem highMark_between {hi env hi' atk rel : Nat}
    (h : hi' = if hi < env then approach hi env atk else recede hi env rel) : min hi env ≤ hi' ∧ hi' ≤ max hi env := by
  rw [h]
  split
  · exact approach_between _ _ _
  · next hle => exact recede_between _ (not_lt.1 hle)

/-- The low mark never passes the envelope (42_demodulator.md R147, R152). -/
theorem lowMark_between {lo env lo' atk rel : Nat}
    (h : lo' = if env < lo then recede lo env atk else approach lo env rel) : min lo env ≤ lo' ∧ lo' ≤ max lo env := by
  rw [h]
  split
  · next hlt => exact recede_between _ hlt.le
  · exact approach_between _ _ _

/-! ### The registers after one sample -/

/-- `count()` on the demodulator's registers (42_demodulator.md R143). -/
def DmRegs.counted (b : Build) (d : DmRegs) : DmRegs := { d with cnt := nextCount b.cntBits d.cnt }

/-- What `count()` does: a wrap to 0 clears the tracker and is an event (42_demodulator.md R143). -/
theorem dmCount_eq (s : State) :
    dmCount s = { s with
      dm := s.dm.counted s.build
      cr := if (s.dm.counted s.build).cnt = 0 then s.cr.cleared else s.cr
      trace := s.trace ++ if (s.dm.counted s.build).cnt = 0 then [Event.crWrap] else [] } := by
  by_cases hwrap : (s.dm.counted s.build).cnt = 0
  · rw [if_pos hwrap, if_pos hwrap]
    exact if_pos hwrap
  · rw [if_neg hwrap, if_neg hwrap, List.append_nil]
    exact if_neg hwrap

section
variable (b : Build) (d : DmRegs) (x : Int)

/-- The window takes the sample, and the level flips exactly when the window says so (42_demodulator.md R149). -/
theorem DmRegs.window_eq (inst : Bool) :
    (d.window inst).1 = { d with win := d.win.drop 1 ++ [inst], level := xor d.level (d.window inst).2 } := by
  unfold DmRegs.window
  dsimp only
  split
  · next h => rw [Bool.xor_true, Bool.eq_not.2 h.2]
  · rw [Bool.xor_false]

/-- The level flips exactly when the whole window is at the other level (42_demodulator.md R149). -/
theorem DmRegs.window_flips_iff (inst : Bool) :
    (d.window inst).2 = true ↔ ∀ v ∈ d.win.drop 1 ++ [inst], v = !d.level := by
  have hbranch : (d.window inst).2 = true ↔ (∀ v ∈ d.win.drop 1 ++ [inst], v = inst) ∧ inst ≠ d.level := by
    unfold DmRegs.window
    dsimp only
    simp only [List.all_eq_true, decide_eq_true_eq]
    split_ifs with h
    · exact iff_of_true rfl h
    · exact iff_of_false not_false h
  rw [hbranch]
  constructor
  · rintro ⟨hall, hne⟩ v hv
    rw [hall v hv, Bool.eq_not.2 hne]
  · intro hall
    have hinst : inst = !d.level := hall inst (by simp)
    exact ⟨fun v hv => (hall v hv).trans hinst.symm, Bool.eq_not.1 hinst⟩

/-- One sample is the filter and mark steps, then the window at the slicer's bit (42_demodulator.md R142). -/
theorem DmRegs.sampled_eq :
    (d.sampled b x).1 = { d.measure b x with
      win := d.win.drop 1 ++ [(d.measure b x).slice]
      level := xor d.level (d.sampled b x).2 } :=
  DmRegs.window_eq (d.measure b x) (d.measure b x).slice

end

section
variable (s : State) (x : Int)

/-- What one sample does before its transition (42_demodulator.md R142). -/
theorem State.sampled_eq :
    s.sampled x = { s with
      dm := ((s.dm.counted s.build).sampled s.build x).1
      cr := if ((s.dm.counted s.build).sampled s.build x).1.cnt = 0 then s.cr.cleared else s.cr
      trace := s.trace ++ if ((s.dm.counted s.build).sampled s.build x).1.cnt = 0 then [Event.crWrap] else [] } := by
  rw [State.sampled, dmCount_eq, DmRegs.sampled_eq]
  rfl

theorem State.flips_eq : s.flips x = ((s.dm.counted s.build).sampled s.build x).2 := by
  rw [State.flips, dmCount_eq]

/-- A transition changes no register of the demodulator (42_demodulator.md R150). -/
theorem dmOnTransition_dm : (dmOnTransition s).1.dm = s.dm := by rw [dmOnTransition_frame]

/-- The trace only grows in a transition (42_demodulator.md R150). -/
theorem dmOnTransition_trace_grows : s.trace <+: (dmOnTransition s).1.trace := by
  have htold : s.trace <+: (crTransition (zext32 s.dm.cnt) s).1.trace := ⟨_, rfl⟩
  unfold dmOnTransition
  dsimp only
  split
  · split
    · exact htold
    · exact htold.trans ⟨_, rfl⟩
  · exact htold

theorem dmProcess_build : (dmProcess x s).1.build = s.build := by rw [dmProcess_frame]

/-- The registers after a sample are those before its transition. -/
theorem dmProcess_dm : (dmProcess x s).1.dm = ((s.dm.counted s.build).sampled s.build x).1 := by
  rw [dmProcess_eq]
  split
  · rw [dmOnTransition_dm, State.sampled_eq]
  · rw [State.sampled_eq]

/-- A counter that wraps is the sample's first event (42_demodulator.md R143). -/
theorem dmProcess_wrap_first (h : (dmProcess x s).1.dm.cnt = 0) :
    s.trace ++ [Event.crWrap] <+: (dmProcess x s).1.trace := by
  have hsampled : (s.sampled x).trace = s.trace ++ [Event.crWrap] := by
    rw [State.sampled_eq, ← dmProcess_dm]
    exact congrArg (s.trace ++ ·) (if_pos h)
  rw [← hsampled, dmProcess_eq]
  split
  · exact dmOnTransition_trace_grows _
  · exact ⟨[], List.append_nil _⟩

end

/-- DM.PROCESS_SAMPLE is the shared body on its operand, and its answer (42_demodulator.md R142). -/
theorem exec_dmProcessSample_eq (s : State) (d : Data) :
    exec (.dmProcessSample d) s =
      .next ((dmProcess (operandSample s.build d) s).1.reply
        (respond true (dmProcess (operandSample s.build d) s).2.rdata)) := rfl

/-- What DM.PROCESS_SAMPLE leaves in the registers, window and level aside (42_demodulator.md R143 to R147). -/
theorem dm_of_exec_dmProcessSample {s t : State} {d : Data} (h : exec (.dmProcessSample d) s = .next t) :
    ∃ win level, t.dm =
      { (s.dm.counted s.build).measure s.build (operandSample s.build d) with win := win, level := level } := by
  cases h
  exact ⟨_, _, (dmProcess_dm s _).trans (DmRegs.sampled_eq _ _ _)⟩

/-! ### A transition by outcome (42_demodulator.md R150) -/

section
variable {s m : State} {d : Data} (hm : s.sampled (operandSample s.build d) = m)
include hm

/-- A sample without a flip tells the level alone (42_demodulator.md R142). -/
theorem exec_dmProcessSample_of_not_flips (hflip : s.flips (operandSample s.build d) = false) :
    exec (.dmProcessSample d) s = .next (m.reply (respond true (DmFlags.rdata { level := m.dm.level }))) := by
  rw [exec_dmProcessSample_eq, dmProcess_eq, hflip, if_neg Bool.false_ne_true, hm]

/-- A sample with a flip tells what its transition told, the flip and the new level (42_demodulator.md R142). -/
theorem exec_dmProcessSample_of_flips (hflip : s.flips (operandSample s.build d) = true) {r : State × DmFlags}
    (hr : dmOnTransition m = r) :
    exec (.dmProcessSample d) s =
      .next (r.1.reply (respond true (DmFlags.rdata { r.2 with trans := true, level := r.1.dm.level }))) := by
  rw [exec_dmProcessSample_eq, dmProcess_eq, if_pos hflip, hm, hr]

end

section
variable {s : State} {c : CrRegs} {o : CrResult}

/-- A flip that is no data sample point. -/
theorem dmOnTransition_undecided (hr : (c, o) = s.cr.transition s.build.histN (zext32 s.dm.cnt)) (hd : o.d = false) :
    dmOnTransition s = ((s.setCr c).eventIf o.rejected .crReject, {}) := by
  simp [dmOnTransition, crTransition, ← hr, hd]

/-- A symbol that RXQ has room for. -/
theorem dmOnTransition_pushed (hr : (c, o) = s.cr.transition s.build.histN (zext32 s.dm.cnt)) (hd : o.d = true)
    (hroom : (s.rxq.put + 1) % s.build.rxqN ≠ s.rxq.get) :
    dmOnTransition s =
      (((s.setCr c).eventIf o.rejected .crReject).setRxq
          (s.rxq.push s.build.rxqN (symbolItem s.build (xor s.dm.level s.dm.man))),
        { pushed := true, sym := xor s.dm.level s.dm.man }) := by
  simp [dmOnTransition, crTransition, ← hr, hd, (QueueRegs.canPut_iff _ _).2 hroom]

/-- A symbol that RXQ has no room for. -/
theorem dmOnTransition_dropped (hr : (c, o) = s.cr.transition s.build.histN (zext32 s.dm.cnt)) (hd : o.d = true)
    (hfull : (s.rxq.put + 1) % s.build.rxqN = s.rxq.get) :
    dmOnTransition s =
      (((s.setCr c).eventIf o.rejected .crReject).event .rxqDrop,
        { sym := xor s.dm.level s.dm.man, dropped := true }) := by
  have hno : s.rxq.canPut s.build.rxqN = false :=
    Bool.eq_false_iff.2 fun hroom => (QueueRegs.canPut_iff _ _).1 hroom hfull
  simp [dmOnTransition, crTransition, ← hr, hd, hno]

end

/-! ### A run of samples (42_demodulator.md R143) -/

/-- One sample advances the counter and leaves the build. -/
theorem exec_dmProcessSample_cnt (d : Data) (s : State) :
    ∃ t, exec (.dmProcessSample d) s = .next t ∧ t.build = s.build ∧
      t.dm.cnt = (s.dm.cnt + 1) % 2 ^ s.build.cntBits := by
  refine ⟨_, exec_dmProcessSample_eq s d, dmProcess_build s _, ?_⟩
  rw [State.reply_dm, dmProcess_dm, DmRegs.sampled_eq]
  rfl

/-- Each sample of a run is counted once. -/
theorem execAll_dmProcessSample_cnt (xs : List Data) {s : State} (hcnt : s.dm.cnt < 2 ^ s.build.cntBits) :
    ∃ t, execAll (xs.map Instr.dmProcessSample) s = .next t ∧
      t.dm.cnt = (s.dm.cnt + xs.length) % 2 ^ s.build.cntBits := by
  induction xs generalizing s with
  | nil => exact ⟨s, rfl, (Nat.mod_eq_of_lt hcnt).symm⟩
  | cons x xs ih =>
    obtain ⟨u, hu, hbuild, hstep⟩ := exec_dmProcessSample_cnt x s
    obtain ⟨t, hrun, ht⟩ := ih (s := u) (by rw [hstep, hbuild]; exact Nat.mod_lt _ (by positivity))
    refine ⟨t, ?_, ?_⟩
    · rw [List.map_cons, execAll, hu]
      exact hrun
    · rw [ht, hstep, hbuild, Nat.mod_add_mod, List.length_cons, Nat.add_right_comm, Nat.add_assoc]

end Sys2Proof.Machine

namespace Sys2Proof.Proofs

open Sys2Proof.Machine

/-- Settles O47: each follower by the side its target lies on, and the bounds from R152. -/
theorem envelopeAndMarksFollow : Obligations.EnvelopeAndMarksFollow := by
  rintro s t x a hexec rfl
  obtain ⟨win, level, hdm⟩ := dm_of_exec_dmProcessSample hexec
  have henv : t.dm.env = approach s.dm.env t.dm.y1.toInt.natAbs s.build.envShift := by rw [hdm]; rfl
  have hhi : t.dm.hi = if s.dm.hi < t.dm.env then approach s.dm.hi t.dm.env s.build.hiAtk
      else recede s.dm.hi t.dm.env s.build.hiRel := by rw [hdm]; rfl
  have hlo : t.dm.lo = if t.dm.env < s.dm.lo then recede s.dm.lo t.dm.env s.build.loAtk
      else approach s.dm.lo t.dm.env s.build.loRel := by rw [hdm]; rfl
  have henvBetween : min s.dm.env t.dm.y1.toInt.natAbs ≤ t.dm.env ∧ t.dm.env ≤ max s.dm.env t.dm.y1.toInt.natAbs :=
    henv ▸ approach_between _ _ _
  have hhiBetween := highMark_between hhi
  have hloBetween := lowMark_between hlo
  have hy := natAbs_toInt_le t.dm.y1
  refine ⟨hy, ?_, fun h => ?_, fun h => ?_, fun h => ?_, fun h => ?_, henvBetween, hhiBetween, hloBetween,
    fun _ _ _ => by omega⟩
  · rw [henv, approach_eq_add_fdiv]
  · rw [hhi, if_pos h, approach_eq_add_fdiv]
  · rw [hhi, if_neg h.not_gt, recede_eq_sub_fdiv _ h]
  · rw [hlo, if_pos h, recede_eq_sub_fdiv _ h.le]
  · rw [hlo, if_neg h.not_gt, approach_eq_add_fdiv]

/-- Settles O49, by induction on the samples from the cleared counter. -/
theorem sampleCounterCountsSamplesSinceClear : Obligations.SampleCounterCountsSamplesSinceClear := by
  intro s xs
  obtain ⟨t, hrun, ht⟩ := execAll_dmProcessSample_cnt xs (s := (dmClear s).1.reply (respond true 0))
    (show 0 < 2 ^ s.build.cntBits by positivity)
  exact ⟨t, hrun, ht.trans (congrArg (· % 2 ^ s.build.cntBits) (Nat.zero_add xs.length))⟩

/-- Settles O45, by whether the configuration is valid. -/
theorem demodulatorSetupAndClear : Obligations.DemodulatorSetupAndClear := by
  refine fun s d => ⟨decode_cmdWord rfl fun _ => rfl, decode_cmdWord rfl fun _ => rfl, ?_, fun hinvalid => ?_, rfl⟩
  · rintro sps rfl hvalid
    exact congrArg finish (dmSetup_loads hvalid)
  · exact congrArg finish (dmSetup_invalid (Bool.eq_false_iff.1 hinvalid))

/-- Settles O46, from the operand's range and the registers after one sample. -/
theorem samplesAreCountedAndFiltered : Obligations.SamplesAreCountedAndFiltered := by
  refine ⟨fun b d hpos hle => ?_, operandSample_default, ?_⟩
  · rw [operandSample, min_eq_left hle]
    obtain ⟨hlo, hhi⟩ := sext_range d.toNat hpos
    exact ⟨hlo, hhi, two_pow_dvd_sub_sext _ _⟩
  · rintro s t d x hexec rfl
    have hwrap : t.dm.cnt = 0 → s.trace ++ [Event.crWrap] <+: t.trace := by
      cases hexec
      exact dmProcess_wrap_first s _
    obtain ⟨win, level, hdm⟩ := dm_of_exec_dmProcessSample hexec
    rw [hdm] at hwrap
    rw [hdm, ← asr_eq_fdiv]
    exact ⟨rfl, rfl, rfl, rfl, rfl, rfl, rfl, hwrap⟩

/-- Settles O48: without a flip the sample ends, with one the transition's outcome and the room in RXQ decide. -/
theorem levelFlipsBecomeSymbols : Obligations.LevelFlipsBecomeSymbols := by
  refine ⟨fun d => decode_cmdWord rfl fun _ => rfl, fun s d _ _ => ?_⟩
  have hdm := DmRegs.sampled_eq s.build (s.dm.counted s.build) (operandSample s.build d)
  have hsampled := State.sampled_eq s (operandSample s.build d)
  have hflips := State.flips_eq s (operandSample s.build d)
  refine ⟨_, ((s.dm.counted s.build).measure s.build (operandSample s.build d)).slice, _, _, _, ?_, ?_, ?_, ?_, ?_, rfl, rfl,
    fun hflip => exec_dmProcessSample_of_not_flips hsampled (hflips.trans hflip), ?_⟩
  · rw [hdm, DmRegs.slice, decide_eq_true_iff]
  · rw [hdm]; rfl
  · rw [hdm]; exact DmRegs.window_flips_iff _ _
  · rw [hdm]; rfl
  · rw [hdm]; rfl
  rintro c o events hflip hr rfl
  have hflipped := fun r => exec_dmProcessSample_of_flips (r := r) hsampled (hflips.trans hflip)
  rw [← List.append_assoc]
  exact ⟨fun hd => hflipped _ (dmOnTransition_undecided hr hd),
    fun hd hroom => hflipped _ (dmOnTransition_pushed hr hd hroom),
    fun hd hfull => hflipped _ (dmOnTransition_dropped hr hd hfull)⟩

end Sys2Proof.Proofs
end

section
/-! CERTIFICATE. The modulator's configuration and its symbols (43_modulator.md R171 to R178): MD.SETUP, MD.CLEAR and the
length registers, one symbol queued or refused, then any run of symbols as far as TXQ has room. -/

namespace Sys2Proof.Machine

/-! ### One symbol (43_modulator.md R176) -/

section
variable {s : State} (v : Bool)

/-- With room in TXQ the symbol is queued. -/
theorem mdAddSymbol_room (h : s.txq.canPut s.build.txqN = true) :
    mdAddSymbol v s = (s.setTxq (s.txq.push s.build.txqN (symbolItem s.build v)), respond true 0) :=
  if_pos h

/-- On a full TXQ only `MD.txOverflow` and the trace change. -/
theorem mdAddSymbol_full (h : ¬ s.txq.canPut s.build.txqN = true) :
    mdAddSymbol v s = ((s.setMd { s.md with txOverflow := true }).event .txOverflow, respond false 0) :=
  if_neg h

end

/-! ### A run of symbols (43_modulator.md R177, R178) -/

theorem State.queued_txq_zero (s : State) : s.queued s.txq 0 = s := by
  simp [State.queued]

/-- One more symbol that did not fit, before the others. -/
theorem State.queued_overflow (s : State) (q : QueueRegs) (k : Nat) :
    ((s.setMd { s.md with txOverflow := true }).event .txOverflow).queued q k = s.queued q (k + 1) := by
  simp [State.queued, State.setMd, State.event, List.replicate_succ]

/-- A run of MD.ADD_SYMBOL queues in order as many symbols as TXQ has room for, and counts the others as overflows. -/
theorem mdAddSymbols_queued (bs : List Bool) {s : State} {room : Nat} (hq : QueueInv s.build.txqN s.txq)
    (hroom : room = s.build.txqN - 1 - s.txq.count s.build.txqN) :
    ∃ q, mdAddSymbols bs s = (s.queued q (bs.length - room), min bs.length room) ∧
      QueueInv s.build.txqN q ∧
      q.items s.build.txqN = s.txq.items s.build.txqN ++ (bs.take room).map (symbolItem s.build) := by
  induction bs generalizing s room with
  | nil => exact ⟨s.txq, by simp [State.queued_txq_zero], hq, by simp⟩
  | cons b bs ih =>
    have hcan := QueueRegs.canPut_iff_count hq
    by_cases hc : s.txq.canPut s.build.txqN = true
    · have hcount := QueueRegs.count_push hq hc (symbolItem s.build b)
      obtain ⟨m, rfl⟩ : ∃ m, room = m + 1 := ⟨room - 1, by have := hcan.1 hc; omega⟩
      obtain ⟨q, hrun, hinv, hitems⟩ :=
        ih (s := s.setTxq (s.txq.push s.build.txqN (symbolItem s.build b))) (room := m) (hq.push _)
          (by rw [State.setTxq_build, State.setTxq_txq, hcount]; omega)
      refine ⟨q, ?_, hinv, hitems.trans ?_⟩
      · rw [mdAddSymbols_cons, mdAddSymbol_room b hc, hrun, List.length_cons, Nat.add_sub_add_right, Nat.add_min_add_right,
          Nat.add_comm (min _ _)]
        rfl
      · rw [State.setTxq_txq, State.setTxq_build, QueueRegs.items_push hq hc, List.take_succ_cons, List.map_cons,
          List.append_assoc]
        rfl
    · obtain rfl : room = 0 := by have := mt hcan.2 hc; omega
      obtain ⟨q, hrun, hinv, hitems⟩ :=
        ih (s := (s.setMd { s.md with txOverflow := true }).event .txOverflow) (room := 0) hq hroom
      refine ⟨q, ?_, hinv, hitems⟩
      rw [mdAddSymbols_cons, mdAddSymbol_full b hc, hrun, State.queued_overflow]
      simp [respond]

/-- The answer to a run: the number of its symbols when all fit, no value otherwise. -/
theorem respond_min (n room : Nat) :
    respond (decide (min n room = n)) (zext32 (min n room)) = respond (decide (n ≤ room)) (zext32 n) := by
  by_cases h : n ≤ room
  · simp [h]
  · simp [respond, h]

/-- MD.ADD_PREAMBLE and MD.ADD_POSTAMBLE: a run of symbols and its answer. -/
theorem mdAddRun_queued (bs : List Bool) {s : State} {room : Nat} (hq : QueueInv s.build.txqN s.txq)
    (hroom : room = s.build.txqN - 1 - s.txq.count s.build.txqN) :
    ∃ q, finish (mdAddRun bs s) =
        .next ((s.queued q (bs.length - room)).reply (respond (decide (bs.length ≤ room)) (zext32 bs.length))) ∧
      QueueInv s.build.txqN q ∧
      q.items s.build.txqN = s.txq.items s.build.txqN ++ (bs.take room).map (symbolItem s.build) := by
  obtain ⟨q, hrun, hinv, hitems⟩ := mdAddSymbols_queued bs hq hroom
  refine ⟨q, ?_, hinv, hitems⟩
  rw [← respond_min, mdAddRun, hrun]
  rfl

theorem length_preambleSymbols (n : Nat) : (preambleSymbols n).length = n := by simp [preambleSymbols]

/-- A preamble alternates and starts with 1, however many of its symbols are kept (43_modulator.md R177). -/
theorem getElem?_take_preambleSymbols {n room k : Nat} (hk : k < min n room) :
    ((preambleSymbols n).take room)[k]? = some (k % 2 == 0) := by
  obtain ⟨hn, hroom⟩ := lt_min_iff.1 hk
  rw [List.getElem?_take_of_lt hroom, preambleSymbols, List.getElem?_map, List.getElem?_range hn]
  rfl

/-- The items of a postamble are zeros, however many of its symbols are kept (43_modulator.md R178). -/
theorem map_take_postambleSymbols (b : Build) (n room : Nat) :
    ((postambleSymbols n).take room).map (symbolItem b) = List.replicate (min n room) 0 := by
  rw [postambleSymbols, List.take_replicate, List.map_replicate, Nat.min_comm, symbolItem, Build.item]
  simp

end Sys2Proof.Machine

namespace Sys2Proof.Proofs

open Sys2Proof.Machine

/-- Settles O34, by whether the configuration is valid. -/
theorem modulatorSetupLoadsTheConfiguration : Obligations.ModulatorSetupLoadsTheConfiguration := fun _ _ =>
  ⟨decode_cmdWord rfl fun _ => rfl, fun hvalid => congrArg finish (mdSetup_valid hvalid),
    fun hinvalid => congrArg finish (mdSetup_invalid (Bool.eq_false_iff.1 hinvalid))⟩

/-- Settles O35: none of the three commands has a case. -/
theorem modulatorClearAndLengths : Obligations.ModulatorClearAndLengths := fun _ _ =>
  ⟨decode_cmdWord rfl fun _ => rfl, decode_cmdWord rfl fun _ => rfl, decode_cmdWord rfl fun _ => rfl, rfl,
    fun _ => rfl, fun _ => rfl⟩

/-- Settles O36, by whether TXQ has room. -/
theorem addSymbolQueuesOrReportsOverflow : Obligations.AddSymbolQueuesOrReportsOverflow := by
  refine fun s d b => ⟨decode_cmdWord rfl fun _ => rfl, fun hroom hwf => ?_, fun hfull => ?_⟩
  · exact ⟨_, congrArg finish (mdAddSymbol_room b ((QueueRegs.canPut_iff _ _).2 hroom)),
      Memory.read_write_same hwf _ _, fun _ hj => Memory.read_write_other _ _ hj⟩
  · exact congrArg finish (mdAddSymbol_full b fun hroom => (QueueRegs.canPut_iff _ _).1 hroom hfull)

/-- Settles O37, from a run of symbols as far as TXQ has room. -/
theorem preambleAndPostambleAreQueued : Obligations.PreambleAndPostambleAreQueued := by
  refine fun s d room hq hroom => ⟨decode_cmdWord rfl fun _ => rfl, decode_cmdWord rfl fun _ => rfl, ?_, ?_⟩
  · rintro n rfl
    obtain ⟨q, hexec, hinv, hitems⟩ := mdAddRun_queued (preambleSymbols s.cfg.preamble) hq hroom
    rw [length_preambleSymbols] at hexec
    exact ⟨q, hexec, hinv, _, hitems, by rw [List.length_take, length_preambleSymbols, Nat.min_comm]; rfl,
      fun k => getElem?_take_preambleSymbols⟩
  · rintro n rfl
    obtain ⟨q, hexec, hinv, hitems⟩ := mdAddRun_queued (postambleSymbols s.cfg.postamble) hq hroom
    rw [postambleSymbols, List.length_replicate] at hexec
    rw [map_take_postambleSymbols] at hitems
    exact ⟨q, hexec, hinv, hitems⟩

end Sys2Proof.Proofs
end

section
/-! CERTIFICATE. MD.GET_SAMPLE (43_modulator.md R179 to R182): one sample of a symbol, then all samples of a symbol, then
those of every symbol that TXQ holds. -/

namespace Sys2Proof.Machine

/-! ### The generator over one sample -/

/-- The increment in use for the next sample: under Manchester coding the other tone's from `MD.half` on (43_modulator.md
R180). -/
def MdRegs.incInUse (m : MdRegs) : BitVec 32 :=
  if m.man = true ∧ m.symPos = m.half then (if m.curBit then m.inc0 else m.inc1) else m.curInc

theorem MdRegs.manchesterSwitch_eq_incInUse (m : MdRegs) : m.manchesterSwitch = { m with curInc := m.incInUse } := by
  unfold MdRegs.manchesterSwitch MdRegs.incInUse
  split <;> rfl

/-- The generator's registers after one sample (43_modulator.md R179). -/
theorem MdRegs.advance_eq (b : Build) {m : MdRegs} (hactive : m.active = true) :
    m.manchesterSwitch.advance b =
      { m with
        curInc := m.incInUse
        phase := nextPhase b m.phase m.incInUse
        symPos := m.symPos + 1
        active := decide (m.symPos + 1 ≠ m.sps) } := by
  rw [MdRegs.manchesterSwitch_eq_incInUse, MdRegs.advance]
  by_cases hlast : m.symPos + 1 = m.sps <;> simp [hlast, hactive]

/-- One sample of a symbol in progress (43_modulator.md R179). -/
theorem mdEmitSample_eq {s : State} (hactive : s.md.active = true) :
    mdEmitSample s =
      (s.setMd { s.md with
        curInc := s.md.incInUse
        phase := nextPhase s.build s.md.phase s.md.incInUse
        symPos := s.md.symPos + 1
        active := decide (s.md.symPos + 1 ≠ s.md.sps) },
      respond true (wrap32 (sine s.build s.md.phase))) := by
  rw [mdEmitSample, MdRegs.advance_eq s.build hactive, MdRegs.manchesterSwitch_eq_incInUse]

/-- `s` with the next symbol of TXQ loaded (43_modulator.md R179, its first step). -/
def State.loadSymbol (s : State) : State := (s.setTxq (s.txq.pop s.build.txqN)).setMd (s.md.load s.txq.head)

section
variable {s : State}

theorem mdGetSample_active (hactive : s.md.active = true) : mdGetSample s = mdEmitSample s := if_pos hactive

theorem mdGetSample_next (hidle : s.md.active = false) (hitem : s.txq.canGet = true) :
    mdGetSample s = mdEmitSample s.loadSymbol := by
  rw [mdGetSample, if_neg (Bool.eq_false_iff.1 hidle), if_pos hitem]
  rfl

theorem mdGetSample_none (hidle : s.md.active = false) (hempty : s.txq.canGet = false) :
    mdGetSample s = (s, respond false 0) := by
  rw [mdGetSample, if_neg (Bool.eq_false_iff.1 hidle), if_neg (Bool.eq_false_iff.1 hempty)]

end

/-- The bit taken from an item, by the item's value (notes/assumptions/19.md). -/
theorem eq_itemBit {v : Nat} {b : Bool} (hzero : v = 0 → b = false) (hone : v = 1 → b = true)
    (hwide : 2 ≤ v → b = Config.wideItemBit v) : b = itemBit v := by
  unfold itemBit
  split_ifs with h0 h1
  · exact hzero h0
  · exact hone h1
  · exact hwide (by omega)

/-! ### Runs of MD.GET_SAMPLE -/

/-- A run that goes on is followed by the rest from its last state. -/
theorem execAll_append {is : List Instr} {s t : State} (h : execAll is s = .next t) (js : List Instr) :
    execAll (is ++ js) s = execAll js t := by
  induction is generalizing s with
  | nil => cases h; rfl
  | cons i is ih =>
    obtain ⟨u, hu, hrest⟩ := execAll_cons_next h
    rw [List.cons_append, execAll, hu]
    exact ih hrest

/-- `k` times MD.GET_SAMPLE leads from `s` to `t`, answers a sample each time and keeps the build, the serving port and the
symbol length. -/
structure GivesSamples (k : Nat) (s t : State) : Prop where
  run : execAll (List.replicate k .mdGetSample) s = .next t
  answers : ∃ ws : List CmdWord, (t.port s.serving).responses = (s.port s.serving).responses ++ ws ∧
    ws.length = k ∧ ∀ w ∈ ws, w.getLsbD 63 = true
  serving : t.serving = s.serving
  build : t.build = s.build
  sps : t.md.sps = s.md.sps

theorem GivesSamples.zero (s : State) : GivesSamples 0 s s where
  run := rfl
  answers := ⟨[], by simp⟩
  serving := rfl
  build := rfl
  sps := rfl

theorem GivesSamples.trans {k m : Nat} {s t u : State} (h : GivesSamples k s t) (h' : GivesSamples m t u) :
    GivesSamples (k + m) s u := by
  obtain ⟨ws, hws, hlength, hv⟩ := h.answers
  obtain ⟨ws', hws', hlength', hv'⟩ := h'.answers
  rw [h.serving, hws, List.append_assoc] at hws'
  refine ⟨?_, ⟨ws ++ ws', hws', ?_, fun w hw => (List.mem_append.1 hw).elim (hv w) (hv' w)⟩,
    h'.serving.trans h.serving, h'.build.trans h.build, h'.sps.trans h.sps⟩
  · rw [List.replicate_add, execAll_append h.run, h'.run]
  · rw [List.length_append, hlength, hlength']

/-- The `V` bit of a sample's response word (30_encoding.md R81). -/
theorem word_respond_true_v (d : Data) : (respond true d).word.getLsbD 63 = true := Resp.word_v _

theorem execAll_singleton {i : Instr} {s t : State} (h : exec i s = .next t) : execAll [i] s = .next t := by
  rw [execAll, h]
  rfl

/-- One sample, emitted from `u`, which is `s` or `s` with a symbol loaded. -/
theorem GivesSamples.one {s u : State} (hget : mdGetSample s = mdEmitSample u) (hports : u.portView = s.portView)
    (hsps : u.md.sps = s.md.sps) (hactive : u.md.active = true) :
    ∃ t, GivesSamples 1 s t ∧ t.txq = u.txq ∧ t.md.symPos = u.md.symPos + 1 ∧
      t.md.active = decide (t.md.symPos ≠ t.md.sps) := by
  rw [mdEmitSample_eq hactive] at hget
  have hserving : u.serving = s.serving := congrArg PortView.serving hports
  have hresponses := fun r => State.reply_responses u r
  rw [hserving, State.port_of_portView hports] at hresponses
  exact ⟨_, ⟨execAll_singleton (congrArg finish hget), ⟨[_], hresponses _, rfl, by simp [word_respond_true_v]⟩,
    hserving, congrArg PortView.build hports, hsps⟩, rfl, rfl, rfl⟩

/-! ### The samples of a symbol and of a transmission -/

/-- The last `k` samples of a symbol in progress, after which the generator is idle (43_modulator.md R179). -/
theorem exists_givesSamples_rest (k : Nat) {s : State} (hpos : s.md.symPos + k = s.md.sps)
    (hactive : s.md.active = decide (s.md.symPos ≠ s.md.sps)) :
    ∃ t, GivesSamples k s t ∧ t.txq = s.txq ∧ t.md.active = false := by
  induction k generalizing s with
  | zero => exact ⟨s, GivesSamples.zero s, rfl, hactive.trans (decide_eq_false (not_not.2 hpos))⟩
  | succ k ih =>
    have hon : s.md.active = true := by rw [hactive, decide_eq_true_iff]; omega
    obtain ⟨u, hone, htxq, hnext, hidle⟩ := GivesSamples.one (mdGetSample_active hon) rfl rfl hon
    obtain ⟨t, hrest, htxq', hdone⟩ := ih (s := u) (by rw [hnext, hone.sps]; omega) hidle
    exact ⟨t, Nat.add_comm 1 k ▸ hone.trans hrest, htxq'.trans htxq, hdone⟩

/-- A queued symbol gives `MD.sps` samples (43_modulator.md R179). -/
theorem exists_givesSamples_symbol {s : State} (hidle : s.md.active = false) (hitem : s.txq.canGet = true)
    (hsps : 0 < s.md.sps) :
    ∃ t, GivesSamples s.md.sps s t ∧ t.txq = s.txq.pop s.build.txqN ∧ t.md.active = false := by
  obtain ⟨u, hone, htxq, hnext, hactive⟩ := GivesSamples.one (mdGetSample_next hidle hitem) rfl rfl rfl
  obtain ⟨k, hk⟩ : ∃ k, s.md.sps = 1 + k := ⟨s.md.sps - 1, by omega⟩
  obtain ⟨t, hrest, htxq', hdone⟩ := exists_givesSamples_rest k (by rw [hnext, hone.sps, hk]; rfl) hactive
  exact ⟨t, hk ▸ hone.trans hrest, htxq'.trans htxq, hdone⟩

/-- `n` queued symbols give `n * MD.sps` samples and leave TXQ empty (43_modulator.md R182). -/
theorem exists_givesSamples_queue (n : Nat) {s : State} (hq : QueueInv s.build.txqN s.txq)
    (hcount : s.txq.count s.build.txqN = n) (hidle : s.md.active = false) (hsps : 0 < s.md.sps) :
    ∃ t, GivesSamples (n * s.md.sps) s t ∧ QueueInv s.build.txqN t.txq ∧ t.txq.count s.build.txqN = 0 ∧
      t.md.active = false := by
  induction n generalizing s with
  | zero => exact ⟨s, by simpa using GivesSamples.zero s, hq, hcount, hidle⟩
  | succ n ih =>
    have hitem : s.txq.canGet = true := (QueueRegs.canGet_iff_count hq).2 (by omega)
    have hpop := QueueRegs.count_pop hq hitem
    obtain ⟨u, hsymbol, htxq, hdone⟩ := exists_givesSamples_symbol hidle hitem hsps
    obtain ⟨t, hrest, hinv, hempty, hdone'⟩ :=
      ih (s := u) (by rw [hsymbol.build, htxq]; exact hq.pop) (by rw [hsymbol.build, htxq]; omega) hdone
        (hsymbol.sps ▸ hsps)
    rw [hsymbol.build] at hinv hempty
    rw [hsymbol.sps] at hrest
    exact ⟨t, by rw [Nat.succ_mul, Nat.add_comm]; exact hsymbol.trans hrest, hinv, hempty, hdone'⟩

end Sys2Proof.Machine

namespace Sys2Proof.Proofs

open Sys2Proof.Machine

/-- Settles O38, by what the generator finds: nothing, a symbol in progress, or a symbol in TXQ. -/
theorem getSampleEmitsThenAdvances : Obligations.GetSampleEmitsThenAdvances := by
  refine fun s d => ⟨decode_cmdWord rfl fun _ => rfl, decode_cmdWord rfl fun _ => rfl, rfl, fun hidle hempty => ?_,
    ?_, ?_⟩
  · exact congrArg finish (mdGetSample_none hidle (by simpa [QueueRegs.canGet] using hempty))
  · rintro inc hactive rfl
    exact congrArg finish ((mdGetSample_active hactive).trans (mdEmitSample_eq hactive))
  · rintro v b inc hidle hitem rfl hzero hone hwide rfl
    obtain rfl := eq_itemBit hzero hone hwide
    exact congrArg finish
      ((mdGetSample_next hidle ((QueueRegs.canGet_iff _).2 hitem)).trans (mdEmitSample_eq rfl))

/-- Settles O39, by induction on the queued symbols, each by induction on its samples. -/
theorem queuedSymbolsGiveSpsSamplesEach : Obligations.QueuedSymbolsGiveSpsSamplesEach := by
  intro s hq hmd hidle
  have hsps : 0 < s.md.sps := by have := hmd.sps_range; omega
  obtain ⟨t, hgives, hinv, hempty, hdone⟩ := exists_givesSamples_queue _ hq rfl hidle hsps
  obtain ⟨ws, hresponses, hlength, hv⟩ := hgives.answers
  have hnone : t.txq.canGet = false := by
    rw [Bool.eq_false_iff, ne_eq, QueueRegs.canGet_iff_count hinv, not_not]
    exact hempty
  refine ⟨t, ws, hgives.run, hresponses, hlength, hv, ?_, hdone, congrArg finish (mdGetSample_none hdone hnone)⟩
  rw [← List.length_eq_zero_iff, QueueRegs.length_items]
  exact hempty

end Sys2Proof.Proofs
end

section
/-! CERTIFICATE. The modulator's phase under every command (43_modulator.md R181): kept, advanced by a sample, or cleared. -/

namespace Sys2Proof.Machine

/-! ### The modulator under called operations -/

section
variable (s : State)

theorem mdAddSymbols_phase (bs : List Bool) : (mdAddSymbols bs s).1.md.phase = s.md.phase := by
  rw [mdAddSymbols_frame]

theorem mdAddSymbol_phase (b : Bool) : (mdAddSymbol b s).1.md.phase = s.md.phase := by
  rcases mdAddSymbol_cases b s with ⟨-, h⟩ | ⟨-, h⟩ <;> rw [h] <;> rfl

theorem mdAddPreamble_phase : (mdAddPreamble s).1.md.phase = s.md.phase := mdAddSymbols_phase s _

theorem mdAddPostamble_phase : (mdAddPostamble s).1.md.phase = s.md.phase := mdAddSymbols_phase s _

theorem fcSendFrameBits_phase : (fcSendFrameBits s).1.md.phase = s.md.phase :=
  mdAddSymbols_phase (s.setFc { s.fc with ones := 0 }) _

theorem crSetup_md : (crSetup s).1.md = s.md := by
  by_cases h : s.cfg.valid = true
  · rw [crSetup_valid h]; rfl
  · rw [crSetup_invalid h]; rfl

theorem dmClear_md : (dmClear s).1.md = s.md := rfl

theorem fcSetup_md : (fcSetup s).1.md = s.md := rfl

theorem dmSetup_md : (dmSetup s).1.md = s.md := by
  by_cases h : s.cfg.valid = true
  · simp only [dmSetup_valid h, State.setCfgErr_md, dmClear_md, crSetup_md, State.setDm_md]
  · rw [dmSetup_invalid h]; rfl

theorem dmProcess_md (x : Int) : (dmProcess x s).1.md = s.md := by rw [dmProcess_frame]

theorem facDecodeProcessSample_md (x : Int) : (facDecodeProcessSample x s).1.md = s.md := by
  unfold facDecodeProcessSample
  dsimp only
  rw [facDrain_frame]
  exact dmProcess_md s x

/-- MD.SETUP clears the phase, with a valid configuration only (43_modulator.md R172). -/
theorem mdSetup_phase : (mdSetup s).1.md.phase = if s.cfg.valid then 0 else s.md.phase := by
  by_cases h : s.cfg.valid = true
  · rw [mdSetup_valid h, if_pos h]; rfl
  · rw [mdSetup_invalid h, if_neg h]; rfl

/-- FAC.SETUP clears the phase, with a valid configuration only (46_facade.md R252). -/
theorem facSetup_phase : (facSetup s).1.md.phase = if s.cfg.valid then 0 else s.md.phase := by
  by_cases h : s.cfg.valid = true
  · simp only [facSetup_valid h, State.setFac_md, fcSetup_md, dmSetup_md, mdSetup_phase]
  · rw [facSetup_invalid h, if_neg h]; rfl

/-- FAC.ENCODE_MESSAGE clears the modulator before it queues symbols (46_facade.md R253). -/
theorem facEncodeMessage_phase : (facEncodeMessage s).1.md.phase = 0 := by
  rw [facEncodeMessage]
  dsimp only
  rw [mdAddPostamble_phase, fcSendFrameBits_phase, mdAddPreamble_phase]
  rfl

/-- A sample advances the phase by the increment that is in use after the switch (43_modulator.md R179, R180). -/
theorem mdEmitSample_phase :
    (mdEmitSample s).1.md.phase = nextPhase s.build s.md.phase (mdEmitSample s).1.md.curInc := by
  rw [mdEmitSample, MdRegs.manchesterSwitch_eq]
  rfl

/-- MD.GET_SAMPLE advances the phase exactly when it gives a sample. -/
theorem mdGetSample_phase :
    (s.md.active = true ∨ s.txq.canGet = true →
      (mdGetSample s).1.md.phase = nextPhase s.build s.md.phase (mdGetSample s).1.md.curInc) ∧
    (s.md.active = false → s.txq.canGet = false → (mdGetSample s).1.md.phase = s.md.phase) := by
  rcases mdGetSample_cases s with ⟨hactive, h⟩ | ⟨-, hitem, h⟩ | ⟨hidle, hempty, h⟩ <;> rw [h]
  · exact ⟨fun _ => mdEmitSample_phase s, fun hidle => absurd hactive (Bool.eq_false_iff.1 hidle)⟩
  · exact ⟨fun _ => mdEmitSample_phase _, fun _ hempty => absurd hitem (Bool.eq_false_iff.1 hempty)⟩
  · refine ⟨fun hsample => ?_, fun _ _ => rfl⟩
    rw [hidle, hempty] at hsample
    exact absurd hsample nofun

end

/-! ### Commands -/

/-- Whatever a command's outcome is, a next state has the phase `p`. -/
def LeavesPhase (p : Nat) (o : Host.Outcome State Fault Refusal) : Prop := ∀ t, o = .next t → t.md.phase = p

theorem leavesPhase_finish {p : Nat} {r : State × Resp} (h : r.1.md.phase = p) : LeavesPhase p (finish r) := by
  rintro t ⟨⟩
  exact h

section
variable (s : State)

theorem leavesPhase_queuePut (i : QueueId) (item : Nat) : LeavesPhase s.md.phase (queuePut i item s) := by
  intro t ht
  obtain ⟨-, rfl⟩ := queuePut_next ht
  cases i <;> rfl

theorem leavesPhase_queueGet (i : QueueId) : LeavesPhase s.md.phase (queueGet i s) := by
  intro t ht
  obtain ⟨-, rfl⟩ := queueGet_next ht
  cases i <;> rfl

/-- A command that only looks leaves the phase. -/
theorem leavesPhase_readOnly {i : Instr} (h : isReadOnly i = true) : LeavesPhase s.md.phase (exec i s) := by
  obtain ⟨op, hop, hexec⟩ := exec_of_isReadOnly h
  rw [hexec]
  exact leavesPhase_finish (by rw [hop.keeps])

/-- Every command but the samples, the SETUPs and the clears of the modulator keeps its phase (43_modulator.md R181). -/
theorem leavesPhase_exec {i : Instr}
    (hi : i ∉ [Instr.mdGetSample, .facEncodeGetSample, .mdSetup, .mdClear, .facSetup, .facEncodeMessage]) :
    LeavesPhase s.md.phase (exec i s) := by
  cases i with
  | mdGetSample | facEncodeGetSample | mdSetup | mdClear | facSetup | facEncodeMessage => exact absurd hi (by decide)
  | facNop | facDecodeGetMessage | facRxmsgRead _ | facCfgRead _ | crcRead | crcTableRead _
  | txqCanPut | txqCanGet | txqCount | txqNthFromPut _ | txqNthFromGet _
  | rxqCanPut | rxqCanGet | rxqCount | rxqNthFromPut _ | rxqNthFromGet _ => exact leavesPhase_readOnly s rfl
  | facDecodeClearMessage | facTxbufClear | mdSetPreamble _ | mdSetPostamble _ | dmClear | crClear | crTransition _
  | fcSetup | fcClear | fcSendFrameBytes | crcInit | crcUpdate _ | txqClear | rxqClear => exact leavesPhase_finish rfl
  | facDecodeProcessSample x => exact leavesPhase_finish (congrArg MdRegs.phase (facDecodeProcessSample_md s _))
  | facTxbufPush b => exact leavesPhase_finish (by unfold facTxbufPush; split <;> rfl)
  | facCfgWrite k v => exact leavesPhase_finish (by unfold facCfgWrite; split <;> rfl)
  | mdAddPreamble => exact leavesPhase_finish (mdAddPreamble_phase s)
  | mdAddPostamble => exact leavesPhase_finish (mdAddPostamble_phase s)
  | mdAddSymbol b => exact leavesPhase_finish (mdAddSymbol_phase s b)
  | dmSetup => exact leavesPhase_finish (congrArg MdRegs.phase (dmSetup_md s))
  | dmProcessSample x => exact leavesPhase_finish (congrArg MdRegs.phase (dmProcess_md s _))
  | crSetup => exact leavesPhase_finish (congrArg MdRegs.phase (crSetup_md s))
  | fcSendFrameBits => exact leavesPhase_finish (fcSendFrameBits_phase s)
  | fcRxByte b => exact leavesPhase_finish (by rw [fcRxByte_frame])
  | fcRxBit bit => exact leavesPhase_finish (by rw [fcRxBit_frame])
  | txqPut d => exact leavesPhase_queuePut s .tx _
  | rxqPut d => exact leavesPhase_queuePut s .rx _
  | txqGet => exact leavesPhase_queueGet s .tx
  | rxqGet => exact leavesPhase_queueGet s .rx

end

end Sys2Proof.Machine

namespace Sys2Proof.Proofs

open Sys2Proof.Machine

/-- Settles O40: the commands that keep the phase, the two that give a sample, and the four that clear the modulator. -/
theorem phaseAdvancesOnlyWithSamples : Obligations.PhaseAdvancesOnlyWithSamples := by
  refine fun i s t hexec => ⟨fun hi => leavesPhase_exec s hi t hexec, ?_, ?_, ?_⟩
  · rintro (rfl | rfl) <;> cases hexec <;> exact mdGetSample_phase s
  · rintro (rfl | rfl)
    · exact leavesPhase_finish (r := mdClear s) rfl t hexec
    · exact leavesPhase_finish (facEncodeMessage_phase s) t hexec
  · rintro (rfl | rfl)
    · exact leavesPhase_finish (mdSetup_phase s) t hexec
    · exact leavesPhase_finish (facSetup_phase s) t hexec

end Sys2Proof.Proofs
end

section
/-! CERTIFICATE. The sine of a phase (43_modulator.md R170): an entry of the quarter-wave table against the real sine, and a
phase taken apart into its quadrant, its index and the bits below. -/

namespace Sys2Proof.Machine

/-! ### An entry of the quarter-wave table -/

section
variable {b : Build} {i : Nat}

/-- The sine at the centre of step `i` of a quarter wave of `2^qtab` steps. -/
noncomputable def stepSine (qtab i : Nat) : ℝ := Real.sin (Real.pi / 2 * (((i : ℝ) + 1 / 2) / 2 ^ qtab))

/-- The centre of a step lies in the first quarter of a turn. -/
theorem stepSine_nonneg {qtab : Nat} (hi : i < 2 ^ qtab) : 0 ≤ stepSine qtab i := by
  have hpi := Real.pi_pos
  have hfrac : ((i : ℝ) + 1 / 2) / 2 ^ qtab ≤ 1 := by
    rw [div_le_one (by positivity)]
    have : (i : ℝ) + 1 ≤ 2 ^ qtab := by exact_mod_cast hi
    linarith
  exact Real.sin_nonneg_of_nonneg_of_le_pi (by positivity) (by nlinarith)

/-- Nothing above the amplitude rounds to the amplitude times the sine. -/
theorem le_sineAmpl_of_le_round {k : Nat} (h : (k : ℝ) ≤ b.sineAmpl * stepSine b.qtabBits i + 1 / 2) : k ≤ b.sineAmpl := by
  have hsine : b.sineAmpl * stepSine b.qtabBits i ≤ b.sineAmpl :=
    mul_le_of_le_one_right (Nat.cast_nonneg _) (Real.sin_le_one _)
  have hlt : (k : ℝ) < (b.sineAmpl + 1 : Nat) := by push_cast; linarith
  exact Nat.lt_succ_iff.1 (Nat.cast_lt.1 hlt)

/-- Rounding the amplitude times the sine up to `k` is what the bitwise search of an entry asks. -/
theorem sineAtLeast_round (hA : 0 < b.sineAmpl) (hi : i < 2 ^ b.qtabBits) (k : Nat) :
    sineAtLeast b.qtabBits i (2 * k - 1) (2 * b.sineAmpl) = true ↔
      (k : ℝ) ≤ b.sineAmpl * stepSine b.qtabBits i + 1 / 2 := by
  rw [sineAtLeast_iff hi _ _ (by omega), ← stepSine]
  push_cast
  constructor <;> intro h <;> linarith

/-- An entry is the greatest natural number that is at most the amplitude times the sine, plus a half. -/
theorem sineQ_bounds (hA : 0 < b.sineAmpl) (hi : i < 2 ^ b.qtabBits) :
    (sineQ b i : ℝ) ≤ b.sineAmpl * stepSine b.qtabBits i + 1 / 2 ∧
      b.sineAmpl * stepSine b.qtabBits i + 1 / 2 < sineQ b i + 1 := by
  have hround := sineAtLeast_round hA hi
  have hsine : 0 ≤ stepSine b.qtabBits i := stepSine_nonneg hi
  obtain ⟨hsat, -, -, hmax⟩ :=
    largest_spec (fun k => sineAtLeast b.qtabBits i (2 * k - 1) (2 * b.sineAmpl))
      (fun x y hxy hy => (hround x).2 (le_trans (by exact_mod_cast hxy) ((hround y).1 hy)))
      (b.sineAmpl.log2 + 1) 0 ((hround 0).2 (by push_cast; positivity))
  rw [← sineQ] at hsat hmax
  refine ⟨(hround _).1 hsat, lt_of_not_ge fun hge => ?_⟩
  have hge' : ((sineQ b i + 1 : Nat) : ℝ) ≤ b.sineAmpl * stepSine b.qtabBits i + 1 / 2 := by push_cast; exact hge
  have hinside : sineQ b i + 1 < 0 + 2 ^ (b.sineAmpl.log2 + 1) := by
    have hle := le_sineAmpl_of_le_round hge'
    have := Nat.lt_log2_self (n := b.sineAmpl)
    omega
  exact absurd ((hround _).2 hge') (by rw [hmax _ (Nat.lt_succ_self _) hinside]; decide)

/-- An entry is the rounded sine (43_modulator.md R170). -/
theorem sineQ_eq_floor (hA : 0 < b.sineAmpl) (hi : i < 2 ^ b.qtabBits) :
    (sineQ b i : Int) = ⌊(b.sineAmpl : ℝ) * stepSine b.qtabBits i + 1 / 2⌋ := by
  rw [eq_comm, Int.floor_eq_iff, Int.cast_natCast]
  exact sineQ_bounds hA hi

/-- An entry from the comparisons on either side of it. -/
theorem sineQ_eq_of_sineAtLeast (hA : 0 < b.sineAmpl) (hi : i < 2 ^ b.qtabBits) {k : Nat}
    (hreached : sineAtLeast b.qtabBits i (2 * k - 1) (2 * b.sineAmpl) = true)
    (hmissed : sineAtLeast b.qtabBits i (2 * (k + 1 : Nat) - 1) (2 * b.sineAmpl) = false) : sineQ b i = k := by
  obtain ⟨hle, hlt⟩ := sineQ_bounds hA hi
  rw [sineAtLeast_round hA hi] at hreached
  rw [Bool.eq_false_iff, ne_eq, sineAtLeast_round hA hi, not_le] at hmissed
  have h1 : (sineQ b i : ℝ) < (k + 1 : Nat) := hle.trans_lt hmissed
  have h2 : (k : ℝ) < (sineQ b i + 1 : Nat) := by push_cast; exact hreached.trans_lt hlt
  rw [Nat.cast_lt] at h1 h2
  omega

/-- No entry is greater than the amplitude. -/
theorem sineQ_le (hA : 0 < b.sineAmpl) (hi : i < 2 ^ b.qtabBits) : sineQ b i ≤ b.sineAmpl :=
  le_sineAmpl_of_le_round (sineQ_bounds hA hi).1

end

/-! ### Quadrant and index -/

/-- The sine in quadrant `k` modulo 4 at index `i`: the table read forwards, backwards, and both again negated
(43_modulator.md R170). -/
def sineAt (b : Build) (k i : Nat) : Int :=
  if k % 4 = 0 then sineQ b i
  else if k % 4 = 1 then sineQ b (2 ^ b.qtabBits - 1 - i)
  else if k % 4 = 2 then -(sineQ b i : Int)
  else -(sineQ b (2 ^ b.qtabBits - 1 - i) : Int)

/-- How many phases share an index: the bits of a phase below quadrant and index. -/
def phaseStep (b : Build) : Nat := 2 ^ (b.phaseBits - 2 - b.qtabBits)

section
variable {b : Build}

/-- The phase with quadrant `k` (and turns above), index `i` and `low` below. -/
def phaseOf (b : Build) (k i low : Nat) : Nat := k * 2 ^ (b.phaseBits - 2) + i * phaseStep b + low

/-- The two bits of the quadrant and the bits of the index, above those of a step. -/
theorem two_pow_quarter (hb : b.valid = true) : 2 ^ (b.phaseBits - 2) = 2 ^ b.qtabBits * phaseStep b := by
  obtain ⟨-, -, -, -, -, -, -, -, hle, -, -⟩ := (build_valid_iff b).1 hb
  rw [phaseStep, ← pow_add, Nat.add_sub_cancel' hle]

theorem two_pow_half (hb : b.valid = true) : 2 ^ (b.phaseBits - 1) = 2 * 2 ^ (b.phaseBits - 2) := by
  obtain ⟨-, -, -, -, -, -, -, hpos, hle, -, -⟩ := (build_valid_iff b).1 hb
  rw [← pow_succ', show b.phaseBits - 2 + 1 = b.phaseBits - 1 by omega]

theorem phaseStep_pos (b : Build) : 0 < phaseStep b := by unfold phaseStep; positivity

/-- A phase from the number of its step: quadrant and index are the step's number taken apart. -/
theorem phaseOf_eq (hb : b.valid = true) (k i low : Nat) :
    phaseOf b k i low = (k * 2 ^ b.qtabBits + i) * phaseStep b + low := by
  rw [phaseOf, two_pow_quarter hb]
  ring

/-- Every phase has a quadrant, an index and bits below. -/
theorem exists_phaseOf (hb : b.valid = true) (p : Nat) :
    ∃ k i low, i < 2 ^ b.qtabBits ∧ low < phaseStep b ∧ p = phaseOf b k i low := by
  refine ⟨p / phaseStep b / 2 ^ b.qtabBits, p / phaseStep b % 2 ^ b.qtabBits, p % phaseStep b,
    Nat.mod_lt _ (by positivity), Nat.mod_lt _ (phaseStep_pos b), ?_⟩
  rw [phaseOf_eq hb, Nat.div_add_mod', Nat.div_add_mod']

variable {k i low : Nat}

theorem phaseOf_div_step (hb : b.valid = true) (hlow : low < phaseStep b) :
    phaseOf b k i low / phaseStep b = k * 2 ^ b.qtabBits + i := by
  rw [phaseOf_eq hb, Nat.add_comm, Nat.add_mul_div_right _ _ (phaseStep_pos b), Nat.div_eq_of_lt hlow, Nat.zero_add]

theorem phaseOf_div_quarter (hb : b.valid = true) (hi : i < 2 ^ b.qtabBits) (hlow : low < phaseStep b) :
    phaseOf b k i low / 2 ^ (b.phaseBits - 2) = k := by
  rw [two_pow_quarter hb, Nat.mul_comm, ← Nat.div_div_eq_div_mul, phaseOf_div_step hb hlow, Nat.add_comm,
    Nat.add_mul_div_right _ _ (by positivity), Nat.div_eq_of_lt hi, Nat.zero_add]

/-- `SINE(p)` reads the quadrant and the index of the phase and nothing below (43_modulator.md R170). -/
theorem sine_phaseOf (hb : b.valid = true) (hi : i < 2 ^ b.qtabBits) (hlow : low < phaseStep b) :
    sine b (phaseOf b k i low) = sineAt b k i := by
  have hindex : phaseOf b k i low / 2 ^ (b.phaseBits - 2 - b.qtabBits) % 2 ^ b.qtabBits = i := by
    rw [← phaseStep, phaseOf_div_step hb hlow, Nat.add_comm, Nat.add_mul_mod_self_right, Nat.mod_eq_of_lt hi]
  unfold sine
  dsimp only
  rw [phaseOf_div_quarter hb hi hlow, hindex]
  rfl

/-- The sine at each quadrant in turn, from the table alone (43_modulator.md R170). -/
theorem sine_quadrants (hb : b.valid = true) (hi : i < 2 ^ b.qtabBits) (hlow : low < phaseStep b) :
    sine b (i * phaseStep b + low) = sineQ b i ∧
    sine b (2 ^ (b.phaseBits - 2) + i * phaseStep b + low) = sineQ b (2 ^ b.qtabBits - 1 - i) ∧
    sine b (2 * 2 ^ (b.phaseBits - 2) + i * phaseStep b + low) = -(sineQ b i : Int) ∧
    sine b (3 * 2 ^ (b.phaseBits - 2) + i * phaseStep b + low) = -(sineQ b (2 ^ b.qtabBits - 1 - i) : Int) := by
  have h := fun k => sine_phaseOf (k := k) hb hi hlow
  have h0 := h 0
  have h1 := h 1
  rw [phaseOf, Nat.zero_mul, Nat.zero_add] at h0
  rw [phaseOf, Nat.one_mul] at h1
  exact ⟨h0, h1, h 2, h 3⟩

/-- Half a turn negates the sine. -/
theorem sineAt_add_two (b : Build) (k i : Nat) : sineAt b (k + 2) i = -sineAt b k i := by
  have hk := Nat.mod_lt k (show 0 < 4 by decide)
  unfold sineAt
  rw [Nat.add_mod]
  generalize k % 4 = r at hk
  interval_cases r <;> simp

/-- The sine mirrored about the quarter turn: the other quadrant of the half, the index counted from the other end. -/
theorem sineAt_mirror (hk : k < 2) (hi : i < 2 ^ b.qtabBits) :
    sineAt b (1 - k) (2 ^ b.qtabBits - 1 - i) = sineAt b k i := by
  interval_cases k
  · simp [sineAt, Nat.sub_sub_self (Nat.le_sub_one_of_lt hi)]
  · simp [sineAt]

/-- The sine never exceeds the amplitude. -/
theorem abs_sineAt_le (hA : 0 < b.sineAmpl) (hi : i < 2 ^ b.qtabBits) : |sineAt b k i| ≤ b.sineAmpl := by
  have hforward := sineQ_le hA hi
  have hbackward := sineQ_le hA (show 2 ^ b.qtabBits - 1 - i < 2 ^ b.qtabBits by omega)
  unfold sineAt
  split_ifs <;> rw [abs_le] <;> omega

/-- The mirrored phase has the mirrored index and the mirrored bits below. -/
theorem mirror_phaseOf (hb : b.valid = true) (hk : k < 2) (hi : i < 2 ^ b.qtabBits) (hlow : low < phaseStep b) :
    2 ^ (b.phaseBits - 1) - 1 - phaseOf b k i low =
      phaseOf b (1 - k) (2 ^ b.qtabBits - 1 - i) (phaseStep b - 1 - low) := by
  obtain ⟨j, hj⟩ : ∃ j, 2 ^ b.qtabBits = i + j + 1 := ⟨2 ^ b.qtabBits - 1 - i, by omega⟩
  obtain ⟨m, hm⟩ : ∃ m, phaseStep b = low + m + 1 := ⟨phaseStep b - 1 - low, by omega⟩
  rw [two_pow_half hb, two_pow_quarter hb, phaseOf_eq hb, phaseOf_eq hb, hj, hm,
    show i + j + 1 - 1 - i = j by omega, show low + m + 1 - 1 - low = m by omega]
  refine Nat.sub_eq_of_eq_add (Nat.sub_eq_of_eq_add ?_)
  interval_cases k <;> ring

/-- The sine over all phases of a build (43_modulator.md R170). -/
theorem sine_symmetries (hb : b.valid = true) (p : Nat) :
    -(b.sineAmpl : Int) ≤ sine b p ∧ sine b p ≤ b.sineAmpl ∧
    sine b (p + 2 ^ (b.phaseBits - 1)) = -sine b p ∧
    (p < 2 ^ (b.phaseBits - 1) → sine b (2 ^ (b.phaseBits - 1) - 1 - p) = sine b p) ∧
    sine b (p / phaseStep b * phaseStep b) = sine b p := by
  obtain ⟨-, -, -, -, -, -, -, -, -, hA, -⟩ := (build_valid_iff b).1 hb
  obtain ⟨k, i, low, hi, hlow, rfl⟩ := exists_phaseOf hb p
  rw [sine_phaseOf hb hi hlow]
  obtain ⟨hlower, hupper⟩ := abs_le.1 (abs_sineAt_le (k := k) hA hi)
  have hturned : phaseOf b k i low + 2 ^ (b.phaseBits - 1) = phaseOf b (k + 2) i low := by
    rw [two_pow_half hb, phaseOf, phaseOf]
    ring
  have hcut : phaseOf b k i low / phaseStep b * phaseStep b = phaseOf b k i 0 := by
    rw [phaseOf_div_step hb hlow, phaseOf_eq hb, Nat.add_zero]
  refine ⟨hlower, hupper, ?_, fun hp => ?_, ?_⟩
  · rw [hturned, sine_phaseOf hb hi hlow, sineAt_add_two]
  · have hk : k < 2 := by
      rw [← phaseOf_div_quarter (k := k) hb hi hlow, Nat.div_lt_iff_lt_mul (by positivity), ← two_pow_half hb]
      exact hp
    rw [mirror_phaseOf hb hk hi hlow, sine_phaseOf hb (by omega) (by omega), sineAt_mirror hk hi]
  · rw [hcut, sine_phaseOf hb hi (phaseStep_pos b)]

end

/-! ### The default table -/

/-- The listing of 43_modulator.md R170. -/
def defaultSineTable : List Nat :=
  [402, 1206, 2009, 2811, 3612, 4410, 5205, 5998, 6786, 7571, 8351, 9126, 9896, 10659, 11417, 12167,
    12910, 13645, 14372, 15090, 15800, 16499, 17189, 17869, 18537, 19195, 19841, 20475, 21096, 21705, 22301, 22884,
    23452, 24007, 24547, 25072, 25582, 26077, 26556, 27019, 27466, 27896, 28310, 28706, 29085, 29447, 29791, 30117,
    30424, 30714, 30985, 31237, 31470, 31685, 31880, 32057, 32213, 32351, 32469, 32567, 32646, 32705, 32745, 32765]

theorem default_valid : ({} : Build).valid = true := by decide

/-- The sine at each of the 64 steps lies between the half-steps about its entry in the listing: the exact comparison
evaluated on either side. -/
theorem sineAtLeast_default : ∀ i < 64,
    sineAtLeast 6 i (2 * defaultSineTable.getD i 0 - 1) (2 * 32767) = true ∧
      sineAtLeast 6 i (2 * (defaultSineTable.getD i 0 + 1) - 1) (2 * 32767) = false := by decide +kernel

theorem sineQ_default {i : Nat} (hi : i < 64) : sineQ {} i = defaultSineTable.getD i 0 :=
  have ⟨hreached, hmissed⟩ := sineAtLeast_default i hi
  sineQ_eq_of_sineAtLeast (b := {}) (by decide) hi hreached (by exact_mod_cast hmissed)

theorem map_sineQ_default : (List.range 64).map (sineQ {}) = defaultSineTable :=
  List.map_congr_left fun _ hi => sineQ_default (List.mem_range.1 hi)

/-- No entry of the listing is 0. -/
theorem sineQ_default_ne_zero {i : Nat} (hi : i < 64) : sineQ {} i ≠ 0 := by
  have hmem : sineQ {} i ∈ defaultSineTable := map_sineQ_default ▸ List.mem_map_of_mem (List.mem_range.2 hi)
  have hnonzero : ∀ v ∈ defaultSineTable, v ≠ 0 := by decide
  exact hnonzero _ hmem

theorem sineAt_default_ne_zero {k i : Nat} (hi : i < 64) : sineAt {} k i ≠ 0 := by
  have hforward := sineQ_default_ne_zero hi
  have hbackward := sineQ_default_ne_zero (show 2 ^ ({} : Build).qtabBits - 1 - i < 64 by dsimp only; omega)
  unfold sineAt
  split_ifs <;> omega

end Sys2Proof.Machine

namespace Sys2Proof.Proofs

open Sys2Proof.Machine

/-- Settles O41: an entry by the bitwise search's bounds, a phase by its quadrant and index, the defaults by evaluating the 64
entries. -/
theorem sineIsOddAndMirrored : Obligations.SineIsOddAndMirrored := by
  refine ⟨fun b i hb hi => ?_, ?_, ?_, fun b p hb => sine_symmetries hb p, fun p => ?_⟩
  · obtain ⟨-, -, -, -, -, -, -, -, -, hA, -⟩ := (build_valid_iff b).1 hb
    exact sineQ_eq_floor hA hi
  · rintro b i low step hb hi rfl hlow
    exact sine_quadrants hb hi hlow
  · rintro table rfl
    refine ⟨map_sineQ_default, fun i hi low hlow => ?_⟩
    have h := sine_quadrants default_valid hi hlow
    have hback := sineQ_default (show 63 - i < 64 by omega)
    have hforward := sineQ_default hi
    rw [show 2 ^ ({} : Build).qtabBits - 1 - i = 63 - i from rfl, hforward, hback] at h
    exact h
  · obtain ⟨k, i, low, hi, hlow, rfl⟩ := exists_phaseOf default_valid p
    rw [sine_phaseOf default_valid hi hlow]
    exact sineAt_default_ne_zero hi

end Sys2Proof.Proofs
end

section
/-! CERTIFICATE. The CRC and the CRC unit (44_crc16.md R200 to R206): the table update as eight turns of the shift register,
the residue of a string with its CRC, and what one changed byte does to the CRC. -/

namespace Sys2Proof.Machine

/-! ### The shift register (44_crc16.md R200, R201) -/

section
variable {poly c d : BitVec 16} {k : Nat}

/-- `k` places to the left, bit `15 - k` is the top bit. -/
theorem getLsbD_shiftLeft_top (hk : k ≤ 15) : (d <<< k).getLsbD 15 = d.getLsbD (15 - k) := by
  simp [BitVec.getLsbD_shiftLeft, -BitVec.getLsbD_eq_getElem, Nat.not_lt.2 hk]

/-- Shifting a register with the message folded in is shifting in the message's top bit; the message moves up beside it. -/
theorem crcShift_xor : crcShift poly (c ^^^ d) = crcBitIn poly c (d.getLsbD 15) ^^^ (d <<< 1) := by
  unfold crcShift crcBitIn
  rw [BitVec.getLsbD_xor, BitVec.shiftLeft_xor_distrib]
  split <;> ac_rfl

theorem crcBitIn_false : crcBitIn poly c false = crcShift poly c := by
  simp [crcBitIn, crcShift]

theorem crcShifts_eq_iterate : crcShifts poly k c = (crcShift poly)^[k] c := by
  induction k generalizing c with
  | zero => rfl
  | succ k ih => exact ih

theorem crcShifts_succ : crcShifts poly (k + 1) c = crcShift poly (crcShifts poly k c) := by
  simp only [crcShifts_eq_iterate, Function.iterate_succ_apply']

theorem crcShifts_zero_right : crcShifts poly k 0 = 0 := by
  rw [crcShifts_eq_iterate]
  exact Function.iterate_fixed (by simp [crcShift]) k

/-- Turns of the register only move up what stays below its top bit. -/
theorem crcShifts_xor_of_top_zero (hk : k ≤ 16) (hd : ∀ i < k, d.getLsbD (15 - i) = false) :
    crcShifts poly k (c ^^^ d) = crcShifts poly k c ^^^ (d <<< k) := by
  induction k with
  | zero => simp [crcShifts]
  | succ k ih =>
    have htop : (d <<< k).getLsbD 15 = false := (getLsbD_shiftLeft_top (by omega)).trans (hd k (Nat.lt_succ_self k))
    rw [crcShifts_succ, ih (by omega) fun i hi => hd i (by omega), crcShift_xor, htop, crcBitIn_false, crcShifts_succ,
      BitVec.shiftLeft_add]

/-- Shifting in the top `k` bits of a message one by one is `k` turns of the register with the message folded in. -/
theorem foldl_crcBitIn (hk : k ≤ 16) :
    ((List.range k).map fun i => d.getLsbD (15 - i)).foldl (crcBitIn poly) c =
      crcShifts poly k (c ^^^ d) ^^^ (d <<< k) := by
  induction k with
  | zero => simp [crcShifts]
  | succ k ih =>
    have hturn := crcShift_xor (poly := poly) (c := crcShifts poly k (c ^^^ d) ^^^ (d <<< k)) (d := d <<< k)
    rw [BitVec.xor_assoc, BitVec.xor_self, BitVec.xor_zero, getLsbD_shiftLeft_top (by omega),
      ← BitVec.shiftLeft_add] at hturn
    rw [List.range_succ, List.map_append, List.foldl_append, ih (by omega), crcShifts_succ, hturn, BitVec.xor_assoc,
      BitVec.xor_self, BitVec.xor_zero]
    rfl

/-- A polynomial with bit 0 set marks in bit 0 whether a one fell out, so no two registers are shifted to the same one. -/
theorem crcShift_injective (hpoly : poly.getLsbD 0 = true) : Function.Injective (crcShift poly) := by
  have hfell (e : BitVec 16) : (crcShift poly e).getLsbD 0 = e.getLsbD 15 := by
    unfold crcShift
    split <;> simp_all
  intro c d h
  have htop : c.getLsbD 15 = d.getLsbD 15 := by rw [← hfell c, ← hfell d, h]
  have hrest : c <<< 1 = d <<< 1 := by
    unfold crcShift at h
    rw [htop] at h
    split at h
    · exact (BitVec.xor_left_inj poly).1 h
    · exact h
  refine BitVec.eq_of_getLsbD_eq fun i hi => ?_
  obtain rfl | hlt : i = 15 ∨ i < 15 := by omega
  · exact htop
  · have hbit := congrArg (BitVec.getLsbD · (i + 1)) hrest
    simpa [BitVec.getLsbD_shiftLeft, -BitVec.getLsbD_eq_getElem, show i + 1 < 16 by omega] using hbit

end

/-! ### The update (44_crc16.md R201) -/

section
variable {poly c d : BitVec 16} {b b' : BitVec 8}

/-- A byte in the high half of a register, where the update folds it in. -/
def byteOnTop (b : BitVec 8) : BitVec 16 := b.setWidth 16 <<< 8

theorem byteOnTop_getLsbD {i : Nat} (hi : i < 8) : (byteOnTop b).getLsbD (15 - i) = b.getLsbD (7 - i) := by
  rw [byteOnTop, BitVec.getLsbD_shiftLeft, BitVec.getLsbD_setWidth, show 15 - i - 8 = 7 - i by omega]
  simp [show ¬ 15 - i < 8 by omega, show 7 - i < 16 by omega, show 15 - i < 16 by omega]

theorem byteOnTop_shiftLeft : byteOnTop b <<< 8 = 0#16 := by
  rw [byteOnTop, ← BitVec.shiftLeft_add]
  exact BitVec.shiftLeft_eq_zero (by decide)

theorem byteOnTop_xor : byteOnTop (b ^^^ b') = byteOnTop b ^^^ byteOnTop b' := by
  rw [byteOnTop, BitVec.setWidth_xor, BitVec.shiftLeft_xor_distrib]
  rfl

theorem byteOnTop_injective : Function.Injective byteOnTop := by
  intro b b' h
  unfold byteOnTop at h
  bv_omega

/-- The low byte of a register as a register of its own. -/
def lowByte (c : BitVec 16) : BitVec 16 := (c.extractLsb' 0 8).setWidth 16

theorem lowByte_getLsbD_high {i : Nat} (hi : i < 8) : (lowByte c).getLsbD (15 - i) = false := by
  simp [lowByte, -BitVec.getLsbD_eq_getElem, show ¬ 15 - i < 8 by omega]

theorem lowByte_shiftLeft : lowByte c <<< 8 = c <<< 8 := by
  ext i hi
  simp [lowByte, show i - 8 < 8 by omega, show i - 8 < 16 by omega]

theorem byteOnTop_high_xor_lowByte (c : BitVec 16) : byteOnTop (c.extractLsb' 8 8) ^^^ lowByte c = c := by
  ext i hi
  by_cases h : i < 8
  · simp [byteOnTop, lowByte, h, BitVec.getLsbD_eq_getElem hi]
  · simp [byteOnTop, lowByte, h, show i - 8 < 8 by omega, show 8 + (i - 8) = i by omega,
      BitVec.getLsbD_eq_getElem hi]

/-- The table update is eight turns of the register with the byte folded in on top: the table gives the turns of the high
half, and the low byte only moves up. -/
theorem crcUpd_eq_crcShifts : crcUpd poly c b = crcShifts poly 8 (c ^^^ byteOnTop b) := by
  have hsplit : c ^^^ byteOnTop b = byteOnTop (c.extractLsb' 8 8 ^^^ b) ^^^ lowByte c := by
    rw [byteOnTop_xor]
    nth_rw 1 [← byteOnTop_high_xor_lowByte c]
    ac_rfl
  rw [hsplit, crcShifts_xor_of_top_zero (by decide) fun i hi => lowByte_getLsbD_high hi, lowByte_shiftLeft,
    BitVec.xor_comm]
  rfl

/-- The update is the bit-serial one (44_crc16.md R201, last sentence). -/
theorem crcUpd_eq_foldl_crcBitIn : crcUpd poly c b = (bitsHighFirst b).foldl (crcBitIn poly) c := by
  have hbits : bitsHighFirst b = (List.range 8).map fun i => (byteOnTop b).getLsbD (15 - i) :=
    List.map_congr_left fun i hi => (byteOnTop_getLsbD (List.mem_range.1 hi)).symm
  rw [hbits, foldl_crcBitIn (by decide), byteOnTop_shiftLeft, BitVec.xor_zero, crcUpd_eq_crcShifts]

/-- A byte equal to the register's high byte leaves only the low byte, moved up. -/
theorem crcUpd_high (poly c : BitVec 16) : crcUpd poly c (c.extractLsb' 8 8) = c <<< 8 := by
  have htable : crcTable poly 0#8 = 0#16 := crcShifts_zero_right
  rw [crcUpd, BitVec.xor_self, htable, BitVec.xor_zero]

theorem crcUpd_injective_left (hpoly : poly.getLsbD 0 = true) : Function.Injective fun c => crcUpd poly c b := by
  intro c d h
  simp only [crcUpd_eq_crcShifts, crcShifts_eq_iterate] at h
  exact (BitVec.xor_left_inj _).1 ((crcShift_injective hpoly).iterate 8 h)

theorem crcUpd_injective_right (hpoly : poly.getLsbD 0 = true) : Function.Injective (crcUpd poly c) := by
  intro b b' h
  rw [crcUpd_eq_crcShifts, crcUpd_eq_crcShifts, crcShifts_eq_iterate, crcShifts_eq_iterate] at h
  exact byteOnTop_injective ((BitVec.xor_right_inj _).1 ((crcShift_injective hpoly).iterate 8 h))

end

/-! ### The CRC of a byte string (44_crc16.md R201, R206) -/

section
variable {poly c : BitVec 16}

theorem crcFold_append (m m' : List (BitVec 8)) : crcFold poly c (m ++ m') = crcFold poly (crcFold poly c m) m' :=
  List.foldl_append

theorem crcFold_cons (b : BitVec 8) (m : List (BitVec 8)) : crcFold poly c (b :: m) = crcFold poly (crcUpd poly c b) m :=
  rfl

/-- A register followed by its own two bytes is 0. -/
theorem crcFold_self (poly c : BitVec 16) : crcFold poly c [c.extractLsb' 8 8, c.extractLsb' 0 8] = 0 := by
  have hlow : c.extractLsb' 0 8 = (c <<< 8).extractLsb' 8 8 := by
    ext i hi
    simp [show 8 + i < 16 by omega, BitVec.getLsbD_eq_getElem (show i < 16 by omega)]
  rw [crcFold_cons, crcUpd_high, hlow]
  calc crcUpd poly (c <<< 8) ((c <<< 8).extractLsb' 8 8)
    _ = c <<< 8 <<< 8 := crcUpd_high poly _
    _ = 0 := by rw [← BitVec.shiftLeft_add]; exact BitVec.shiftLeft_eq_zero (by decide)

theorem crcFold_injective (hpoly : poly.getLsbD 0 = true) (m : List (BitVec 8)) :
    Function.Injective fun c => crcFold poly c m := by
  induction m with
  | nil => exact fun _ _ h => h
  | cons b m ih => exact ih.comp (crcUpd_injective_left hpoly)

/-- With a polynomial that has bit 0 set, different bytes in one place give different CRCs (44_crc16.md R206). -/
theorem crcFold_ne_of_byte_ne (hpoly : poly.getLsbD 0 = true) (a b : List (BitVec 8)) {x y : BitVec 8} (hne : x ≠ y) :
    crcFold poly c (a ++ [x] ++ b) ≠ crcFold poly c (a ++ [y] ++ b) := by
  simp only [crcFold_append]
  exact fun h => hne (crcUpd_injective_right hpoly (crcFold_injective hpoly b h))

end

end Sys2Proof.Machine

namespace Sys2Proof.Proofs

open Sys2Proof.Machine

/-- Settles O19: none of the four commands has a case. -/
theorem crcUnitCommands : Obligations.CrcUnitCommands := fun _ _ =>
  ⟨decode_cmdWord rfl fun _ => rfl, decode_cmdWord rfl fun _ => rfl, decode_cmdWord rfl fun _ => rfl,
    decode_cmdWord rfl fun _ => rfl, rfl, fun _ => rfl, rfl, fun _ => rfl, rfl, rfl⟩

/-- Settles O20: both updates are eight turns of the shift register with the byte folded in on top. -/
theorem crcUpdateIsTheBitSerialUpdate : Obligations.CrcUpdateIsTheBitSerialUpdate := fun _ _ _ =>
  crcUpd_eq_foldl_crcBitIn

/-- Settles O21: the register's own two bytes clear it, high byte first; the check value by evaluation. -/
theorem crcResidueIsZero : Obligations.CrcResidueIsZero :=
  ⟨fun poly c0 m => by rw [crcFold_append, crcFold_self], by decide⟩

/-- Settles O22: `0x1021` has bit 0 set, so no later byte makes two different registers meet. -/
theorem oneChangedByteChangesTheCrc : Obligations.OneChangedByteChangesTheCrc := fun _ a b _ _ hne =>
  crcFold_ne_of_byte_ne rfl a b hne

end Sys2Proof.Proofs
end

section
/-! CERTIFICATE. The receive parser fed the escaped octets of a byte string (45_frame_codec.md R217 to R220): it buffers the
string and its running CRC, and a boundary after a wrong CRC discards the frame (44_crc16.md R206). -/

namespace Sys2Proof.Machine

/-! ### One octet (45_frame_codec.md R217, R219, R220) -/

/-- The parser's registers after `store(b)` with room (45_frame_codec.md R220). -/
def FcRegs.stored (poly : BitVec 16) (f : FcRegs) (b : BitVec 8) : FcRegs :=
  { f with
    buf := Memory.write f.buf f.pos b
    rxCrc := if 2 ≤ f.pos then crcUpd poly f.rxCrc (Memory.read (Memory.write f.buf f.pos b) (f.pos - 2)) else f.rxCrc
    pos := f.pos + 1 }

theorem FcRegs.endFrame_eq_self {f : FcRegs} (hpos : f.pos = 0) (hcrc : f.rxCrc = 0xFFFF) (hin : f.inEsc = false)
    (hdiscard : f.discard = false) : f.endFrame = f := by
  cases f
  simp_all [FcRegs.endFrame]

section
variable {s : State} {b : BitVec 8}

theorem fcStore_of_room (hroom : s.fc.pos ≠ s.build.maxFrameLen) :
    fcStore b s = (s.setFc (s.fc.stored s.build.crcPoly b), { stored := true }) := if_neg hroom

theorem fcRxByte_flag : fcRxByte flagOctet s = fcBoundary s := if_pos rfl

theorem fcRxByte_esc (hdiscard : s.fc.discard = false) :
    fcRxByte escOctet s = (s.setFc { s.fc with inEsc := !s.fc.inEsc }, {}) := by
  simp [fcRxByte, hdiscard, show escOctet ≠ flagOctet by decide]

theorem fcRxByte_escaped (hflag : b ≠ flagOctet) (hesc : b ≠ escOctet) (hdiscard : s.fc.discard = false)
    (hin : s.fc.inEsc = true) : fcRxByte b s = fcStore (b ^^^ escMask) (s.setFc { s.fc with inEsc := false }) := by
  simp [fcRxByte, hflag, hdiscard, hesc, hin]

theorem fcRxByte_plain (hflag : b ≠ flagOctet) (hesc : b ≠ escOctet) (hdiscard : s.fc.discard = false)
    (hin : s.fc.inEsc = false) : fcRxByte b s = fcStore b s := by
  simp [fcRxByte, hflag, hdiscard, hesc, hin]

end

/-! ### A run of octets inside a frame -/

/-- FC.RX_BYTE of each octet of `os` leads from `s` to `t` and changes the codec's registers and the ports alone. -/
structure Parses (os : List (BitVec 8)) (s t : State) : Prop where
  run : execAll (os.map Instr.fcRxByte) s = .next t
  rest : t = { s with fc := t.fc, portT := t.portT, portA := t.portA }

section
variable {os os' : List (BitVec 8)} {s t u : State}

theorem Parses.build (h : Parses os s t) : t.build = s.build := by rw [h.rest]
theorem Parses.fac (h : Parses os s t) : t.fac = s.fac := by rw [h.rest]
theorem Parses.trace (h : Parses os s t) : t.trace = s.trace := by rw [h.rest]

theorem Parses.nil (s : State) : Parses [] s s := ⟨rfl, rfl⟩

theorem Parses.trans (h : Parses os s t) (h' : Parses os' t u) : Parses (os ++ os') s u where
  run := by rw [List.map_append, execAll_append h.run, h'.run]
  rest := by
    rw [h'.rest, h.rest]

/-- One octet that only changes the codec's registers. -/
theorem Parses.one {o : BitVec 8} {f : FcRegs} (h : (fcRxByte o s).1 = s.setFc f) :
    ∃ t, Parses [o] s t ∧ t.fc = f := by
  refine ⟨(s.setFc f).reply (respond true (fcRxByte o s).2.rdata), ⟨execAll_singleton ?_, rfl⟩, rfl⟩
  rw [← h]
  rfl

/-- The escaped octets of one byte store the byte. -/
theorem parses_escapeByte (b : BitVec 8) (hroom : s.fc.pos ≠ s.build.maxFrameLen) (hin : s.fc.inEsc = false)
    (hdiscard : s.fc.discard = false) :
    ∃ t, Parses (escapeByte b) s t ∧ t.fc = s.fc.stored s.build.crcPoly b := by
  unfold escapeByte
  split_ifs with hb
  · obtain ⟨u, hu, hfc⟩ := Parses.one (congrArg (·.1) (fcRxByte_esc hdiscard))
    obtain ⟨hflag, hesc⟩ : b ^^^ escMask ≠ flagOctet ∧ b ^^^ escMask ≠ escOctet := by
      rcases hb with rfl | rfl <;> decide
    have hback : { u.fc with inEsc := false } = s.fc := by rw [hfc, ← hin]
    have hstore : (fcRxByte (b ^^^ escMask) u).1 = u.setFc (s.fc.stored s.build.crcPoly b) := by
      rw [fcRxByte_escaped hflag hesc (by rw [hfc, hdiscard]) (by rw [hfc, hin]; rfl), BitVec.xor_assoc,
        BitVec.xor_self, BitVec.xor_zero, hback,
        fcStore_of_room (by rw [State.setFc_build, State.setFc_fc, hu.build]; exact hroom), State.setFc_build, hu.build]
      rfl
    obtain ⟨t, ht, hfc'⟩ := Parses.one hstore
    exact ⟨t, hu.trans ht, hfc'⟩
  · obtain ⟨hflag, hesc⟩ := not_or.1 hb
    exact Parses.one (by rw [fcRxByte_plain hflag hesc hdiscard hin, fcStore_of_room hroom])

/-- The escaped octets of a byte string that fits store its bytes in order. -/
theorem parses_escaped (p : List (BitVec 8)) (hroom : s.fc.pos + p.length ≤ s.build.maxFrameLen)
    (hin : s.fc.inEsc = false) (hdiscard : s.fc.discard = false) :
    ∃ t, Parses (p.flatMap escapeByte) s t ∧ t.fc = p.foldl (FcRegs.stored s.build.crcPoly) s.fc := by
  induction p generalizing s with
  | nil => exact ⟨s, .nil s, rfl⟩
  | cons b p ih =>
    rw [List.length_cons] at hroom
    obtain ⟨u, hu, hfc⟩ := parses_escapeByte b (by omega) hin hdiscard
    obtain ⟨t, ht, hfc'⟩ := ih (s := u) (by rw [hfc, hu.build]; simp only [FcRegs.stored]; omega)
      (by rw [hfc]; exact hin) (by rw [hfc]; exact hdiscard)
    rw [hu.build, hfc] at hfc'
    exact ⟨t, hu.trans ht, hfc'⟩

/-- A boundary between frames changes nothing. -/
theorem parses_opening_flag (hpos : s.fc.pos = 0) (hcrc : s.fc.rxCrc = 0xFFFF) (hin : s.fc.inEsc = false)
    (hdiscard : s.fc.discard = false) : ∃ t, Parses [flagOctet] s t ∧ t.fc = s.fc := by
  have hboundary : (fcRxByte flagOctet s).1 = s.setFc s.fc := by
    rw [fcRxByte_flag, fcBoundary, if_neg (by omega), FcRegs.endFrame_eq_self hpos hcrc hin hdiscard]
  exact Parses.one hboundary

end

/-! ### What the parser buffers (45_frame_codec.md R218, R220) -/

/-- The parser's registers hold the bytes `p` of a frame: they lie in the buffer, and the running CRC is two bytes
behind. -/
structure FcRegs.Holds (poly : BitVec 16) (p : List (BitVec 8)) (f : FcRegs) : Prop where
  pos : f.pos = p.length
  buf : Memory.firstN f.buf p.length = p
  wf : Memory.wf f.buf = true
  rxCrc : f.rxCrc = crcFold poly 0xFFFF (p.take (p.length - 2))

section
variable {poly c : BitVec 16} {p m : List (BitVec 8)} {f : FcRegs}

theorem FcRegs.Holds.nil (hpos : f.pos = 0) (hcrc : f.rxCrc = 0xFFFF) (hwf : Memory.wf f.buf = true) :
    f.Holds poly [] := ⟨hpos, rfl, hwf, hcrc⟩

theorem FcRegs.Holds.read (h : f.Holds poly p) {i : Nat} (hi : i < p.length) : Memory.read f.buf i = p[i] := by
  have hfirst := Memory.getElem_firstN f.buf p.length i (by rwa [Memory.length_firstN])
  rw [← hfirst]
  simp only [h.buf]

theorem FcRegs.Holds.stored (h : f.Holds poly p) (b : BitVec 8) : (f.stored poly b).Holds poly (p ++ [b]) where
  pos := by rw [FcRegs.stored, List.length_append, h.pos]; rfl
  buf := by rw [FcRegs.stored, List.length_append, List.length_singleton, h.pos, Memory.firstN_write_succ h.wf, h.buf]
  wf := Memory.wf_write h.wf _ _
  rxCrc := by
    simp only [FcRegs.stored, List.length_append, List.length_singleton, h.pos]
    split_ifs with hlen
    · rw [Memory.read_write_other _ _ (by omega), h.read (by omega), h.rxCrc,
        show p.length + 1 - 2 = p.length - 2 + 1 by omega, List.take_append_of_le_length (by omega),
        List.take_succ_eq_append_getElem (by omega), crcFold_append]
      rfl
    · rw [h.rxCrc, show p.length - 2 = 0 by omega, show p.length + 1 - 2 = 0 by omega]
      rfl

theorem FcRegs.Holds.foldl_stored (h : f.Holds poly p) (q : List (BitVec 8)) :
    (q.foldl (FcRegs.stored poly) f).Holds poly (p ++ q) := by
  induction q generalizing f p with
  | nil => rwa [List.append_nil]
  | cons b q ih => simpa using ih (h.stored b)

theorem foldl_stored_crcBE (q : List (BitVec 8)) : (q.foldl (FcRegs.stored poly) f).crcBE = f.crcBE := by
  induction q generalizing f with
  | nil => rfl
  | cons b q ih => exact ih

@[simp] theorem length_crcBytes (be : Bool) (c : BitVec 16) : (crcBytes be c).length = 2 := by
  cases be <;> rfl

theorem high_append_low (c : BitVec 16) : c.extractLsb' 8 8 ++ c.extractLsb' 0 8 = c :=
  (BitVec.extractLsb'_append_extractLsb'_eq_extractLsb' (x := c) (start₁ := 0) (len₁ := 8) rfl).trans
    BitVec.extractLsb'_eq_self

/-- A frame that ends in the bytes of `c` carries the CRC `c`, and the running CRC is its payload's. -/
theorem FcRegs.Holds.receivedCrc (h : f.Holds poly (m ++ crcBytes f.crcBE c)) : f.receivedCrc = c := by
  have hfirst := h.read (i := m.length) (by simp)
  have hsecond := h.read (i := m.length + 1) (by simp)
  have hpos : f.pos = m.length + 2 := by simpa using h.pos
  rw [FcRegs.receivedCrc, hpos, show m.length + 2 - 2 = m.length by omega, show m.length + 2 - 1 = m.length + 1 by omega,
    hfirst, hsecond]
  cases hbe : f.crcBE <;> simpa [crcBytes, hbe] using high_append_low c

theorem FcRegs.Holds.rxCrc_payload {be : Bool} (h : f.Holds poly (m ++ crcBytes be c)) :
    f.rxCrc = crcFold poly 0xFFFF m := by
  rw [h.rxCrc]
  simp

end

/-! ### The closing boundary (45_frame_codec.md R218) -/

/-- A boundary after a wrong CRC discards the frame. -/
theorem fcBoundary_of_mismatch {s : State} (hpos : 2 ≤ s.fc.pos) (hcrc : s.fc.receivedCrc ≠ s.fc.rxCrc) :
    fcBoundary s = ((s.event .crcMismatch).setFc s.fc.endFrame, { crcMismatch := true }) := by
  rw [fcBoundary, if_pos hpos, if_neg hcrc]

/-- A frame with the CRC of another payload, sent to a receiver between frames, is discarded with one CRC_MISMATCH. -/
theorem execAll_frame_of_mismatch {r : State} (m : List (BitVec 8)) (c : BitVec 16)
    (hroom : m.length + 2 ≤ r.build.maxFrameLen) (hpos : r.fc.pos = 0) (hcrc : r.fc.rxCrc = 0xFFFF)
    (hin : r.fc.inEsc = false) (hdiscard : r.fc.discard = false) (hwf : Memory.wf r.fc.buf = true)
    (hne : c ≠ crcFold r.build.crcPoly 0xFFFF m) :
    ∃ t, execAll (([flagOctet] ++ (m ++ crcBytes r.fc.crcBE c).flatMap escapeByte ++ [flagOctet]).map Instr.fcRxByte) r =
        .next t ∧ t.fac = r.fac ∧ t.trace = r.trace ++ [.crcMismatch] := by
  obtain ⟨s, hopen, hs⟩ := parses_opening_flag hpos hcrc hin hdiscard
  obtain ⟨u, hbody, hu⟩ := parses_escaped (s := s) (m ++ crcBytes r.fc.crcBE c)
    (by rw [hs, hopen.build, hpos]; simpa using hroom) (by rw [hs, hin]) (by rw [hs, hdiscard])
  have hrun := hopen.trans hbody
  rw [hs, hopen.build] at hu
  have hbe : u.fc.crcBE = r.fc.crcBE := by rw [hu, foldl_stored_crcBE]
  have hholds : u.fc.Holds r.build.crcPoly (m ++ crcBytes u.fc.crcBE c) := by
    rw [hbe, hu]
    exact (FcRegs.Holds.nil hpos hcrc hwf).foldl_stored _
  have hlong : 2 ≤ u.fc.pos := by simp [hholds.pos]
  have hwrong : u.fc.receivedCrc ≠ u.fc.rxCrc := by rwa [hholds.receivedCrc, hholds.rxCrc_payload]
  have hclose := fcRxByte_flag.trans (fcBoundary_of_mismatch hlong hwrong)
  rw [List.map_append, execAll_append hrun.run]
  refine ⟨_, execAll_singleton rfl, ?_, ?_⟩
  · rw [State.reply_fac, hclose]
    exact hrun.fac
  · rw [State.reply_trace, hclose]
    exact congrArg (· ++ [Event.crcMismatch]) hrun.trace

end Sys2Proof.Machine

namespace Sys2Proof.Proofs

open Sys2Proof.Machine

/-- Settles O33: the receiver buffers the changed payload with the old CRC, and one changed byte changes the CRC. -/
theorem changedPayloadByteIsNotDelivered : Obligations.ChangedPayloadByteIsNotDelivered := by
  intro r a b x y hne hpoly hroom hpos hcrc hin hdiscard hwf
  refine execAll_frame_of_mismatch (a ++ [y] ++ b) _ (by simpa using by omega) hpos hcrc hin hdiscard hwf ?_
  rw [hpoly]
  exact crcFold_ne_of_byte_ne rfl a b hne

end Sys2Proof.Proofs
end

section
/-! CERTIFICATE. Sending a frame (45_frame_codec.md R212, R215, R216, R224): the octets of `sendFrame` in either mode,
the symbols of an octet in bit mode, and what a run of `sendBit` leaves. -/

namespace Sys2Proof.Machine

/-! ### The octets of a frame, in either mode (45_frame_codec.md R224) -/

section
variable (emit : Bool → Sending → BitVec 8 → Sending)

/-- The loop over the payload emits the escaped payload and ends with its CRC. -/
theorem Sending.payload_eq (poly : BitVec 16) (m : List (BitVec 8)) (c : Sending) (crc : BitVec 16) :
    Sending.payload emit poly m c crc = ((m.flatMap escapeByte).foldl (emit false) c, crcFold poly crc m) := by
  induction m generalizing c crc with
  | nil => rfl
  | cons b m ih => rw [Sending.payload, ih, List.flatMap_cons, List.foldl_append, crcFold_cons]

/-- `sendFrame` emits the boundary, the octets of the frame's body in order, and the boundary. -/
theorem Sending.frame_eq (c : Sending) :
    Sending.frame emit c =
      emit true
        ((frameBody c.block.build.crcPoly c.block.fc.crcBE c.block.txPayload).foldl (emit false)
          (emit true (c.setOnes 0) flagOctet)) flagOctet := by
  rw [Sending.frame, Sending.payload_eq, frameBody, List.flatMap_append, List.foldl_append, crcBytes]
  cases c.block.fc.crcBE <;> simp

end

/-- Byte mode puts the octets on BYTE_OUT and counts them (45_frame_codec.md R212). -/
theorem Sending.foldl_octetInBytes (os : List (BitVec 8)) (isFlag : Bool) (c : Sending) :
    os.foldl (Sending.octetInBytes isFlag) c =
      { c with block := c.block.emit os, nOut := c.nOut + os.length } := by
  induction os generalizing c with
  | nil => simp [State.emit]
  | cons o os ih => simp [ih, Sending.octetInBytes, State.emit, Nat.add_assoc, Nat.add_comm 1]

/-- FC.SEND_FRAME_BYTES is `sendFrame(BYTES)` (45_frame_codec.md R215). -/
theorem fcSendFrameBytes_eq_procedure (s : State) :
    fcSendFrameBytes s =
      ((Sending.frame Sending.octetInBytes ⟨s, 0, true⟩).block,
        respond true (zext32 (Sending.frame Sending.octetInBytes ⟨s, 0, true⟩).nOut)) := by
  rw [Sending.frame_eq, Sending.foldl_octetInBytes]
  simp [Sending.octetInBytes, Sending.setOnes, fcSendFrameBytes, frameOctets, State.emit, State.setFc, Nat.add_comm]

/-! ### The symbols of an octet (45_frame_codec.md R212) -/

/-- `sendBit` for each symbol in order. -/
def Sending.bits (bs : List Bool) (c : Sending) : Sending := bs.foldl Sending.bit c

section
variable (c : Sending)

@[simp] theorem Sending.setOnes_ones (n : Nat) : (c.setOnes n).block.fc.ones = n := rfl

@[simp] theorem Sending.setOnes_setOnes (n k : Nat) : (c.setOnes n).setOnes k = c.setOnes k := rfl

/-- `MD.ADD_SYMBOL` leaves the frame codec alone (43_modulator.md R176). -/
theorem mdAddSymbol_setFc (v : Bool) (s : State) (f : FcRegs) :
    mdAddSymbol v (s.setFc f) = ((mdAddSymbol v s).1.setFc f, (mdAddSymbol v s).2) := by
  unfold mdAddSymbol
  rw [State.setFc_txq, State.setFc_build]
  split <;> rfl

theorem mdAddSymbol_fc (v : Bool) (s : State) : (mdAddSymbol v s).1.fc = s.fc := by
  rcases mdAddSymbol_cases v s with ⟨-, h⟩ | ⟨-, h⟩ <;> rw [h] <;> rfl

/-- `sendBit` and the stuffing counter do not meet. -/
theorem Sending.setOnes_bit (n : Nat) (v : Bool) : (c.setOnes n).bit v = (c.bit v).setOnes n := by
  simp [Sending.setOnes, Sending.bit, mdAddSymbol_setFc, mdAddSymbol_fc]

theorem Sending.bits_append (bs bs' : List Bool) : c.bits (bs ++ bs') = (c.bits bs).bits bs' := List.foldl_append

theorem Sending.setOnes_bits (n : Nat) (bs : List Bool) : (c.setOnes n).bits bs = (c.bits bs).setOnes n := by
  induction bs generalizing c with
  | nil => rfl
  | cons b bs ih =>
    rw [Sending.bits, List.foldl_cons, Sending.setOnes_bit]
    exact ih (c.bit b)

/-- The bits of an octet outside a boundary go out with stuffing, from the counter's value. -/
theorem Sending.foldl_octetBit (bs : List Bool) (k : Nat) :
    bs.foldl (Sending.octetBit false) (c.setOnes k) =
      (c.bits (stuffBits k bs).1).setOnes (stuffBits k bs).2 := by
  induction bs generalizing c k with
  | nil => rfl
  | cons b bs ih =>
    cases b with
    | false =>
      have hzero : Sending.octetBit false (c.setOnes k) false = (c.bit false).setOnes 0 := by
        simp [Sending.octetBit, Sending.setOnes_bit]
      rw [List.foldl_cons, hzero, ih]
      rfl
    | true =>
      have hone : Sending.octetBit false (c.setOnes k) true =
          if k + 1 = 5 then ((c.bit true).bit false).setOnes 0 else (c.bit true).setOnes (k + 1) := by
        simp [Sending.octetBit, Sending.setOnes_bit]
      rw [List.foldl_cons, hone, stuffBits]
      split <;> (rw [ih]; rfl)

/-- The body's octets go out as their bits with stuffing, the counter running on across octets. -/
theorem Sending.foldl_octetInBits (os : List (BitVec 8)) (k : Nat) :
    os.foldl (Sending.octetInBits false) (c.setOnes k) =
      (c.bits (stuffBits k (os.flatMap octetBits)).1).setOnes (stuffBits k (os.flatMap octetBits)).2 := by
  rw [← Sending.foldl_octetBit, List.foldl_flatMap]
  rfl

/-- A boundary octet goes out unstuffed and leaves the counter 0. -/
theorem Sending.octetInBits_flag (o : BitVec 8) : c.octetInBits true o = (c.bits (octetBits o)).setOnes 0 := by
  have hbit : ∀ (c : Sending) v, Sending.octetBit true c v = (c.bit v).setOnes 0 := fun _ _ => rfl
  simp [Sending.octetInBits, Sending.bits, octetBits, List.range_succ, hbit, Sending.setOnes_bit]

end

/-! ### A run of `sendBit` (43_modulator.md R176) -/

theorem mdAddSymbols_le_length (bs : List Bool) (s : State) : (mdAddSymbols bs s).2 ≤ bs.length := by
  induction bs generalizing s with
  | nil => exact le_rfl
  | cons b bs ih =>
    have hrest := ih (mdAddSymbol b s).1
    have hfirst := Bool.toNat_le (mdAddSymbol b s).2.v
    rw [mdAddSymbols_cons, List.length_cons]
    omega

/-- A run of `sendBit` presents every symbol, counts all of them, and `ok` stays 1 exactly when every one was queued. -/
theorem Sending.bits_eq (bs : List Bool) (c : Sending) :
    c.bits bs =
      ⟨(mdAddSymbols bs c.block).1, c.nOut + bs.length,
        c.ok && decide ((mdAddSymbols bs c.block).2 = bs.length)⟩ := by
  induction bs generalizing c with
  | nil => simp [Sending.bits]
  | cons b bs ih =>
    have hle := mdAddSymbols_le_length bs (mdAddSymbol b c.block).1
    have hrun : c.bits (b :: bs) = (c.bit b).bits bs := rfl
    rw [hrun, ih, mdAddSymbols_cons, Sending.bit]
    cases (mdAddSymbol b c.block).2.v <;> simp [Nat.add_comm 1] <;> omega

/-- `sendFrame(BITS)` presents the frame's symbols to MD.ADD_SYMBOL in order (45_frame_codec.md R212, R224). -/
theorem Sending.frame_octetInBits (c : Sending) :
    Sending.frame Sending.octetInBits c =
      (c.setOnes 0).bits (frameBits c.block.build.crcPoly c.block.fc.crcBE c.block.txPayload) := by
  rw [Sending.frame_eq, Sending.octetInBits_flag (c.setOnes 0), Sending.foldl_octetInBits, Sending.octetInBits_flag,
    frameBits, Sending.bits_append, Sending.bits_append]
  simp only [Sending.setOnes_bits, Sending.setOnes_setOnes]

/-- FC.SEND_FRAME_BITS is `sendFrame(BITS)` (45_frame_codec.md R216). -/
theorem fcSendFrameBits_eq_procedure (s : State) :
    fcSendFrameBits s =
      ((Sending.frame Sending.octetInBits ⟨s, 0, true⟩).block,
        respond (Sending.frame Sending.octetInBits ⟨s, 0, true⟩).ok
          (zext32 (Sending.frame Sending.octetInBits ⟨s, 0, true⟩).nOut)) := by
  have hstart : Sending.setOnes ⟨s, 0, true⟩ 0 = ⟨s.setFc { s.fc with ones := 0 }, 0, true⟩ := rfl
  rw [Sending.frame_octetInBits, hstart, Sending.bits_eq, Bool.true_and, Nat.zero_add, fcSendFrameBits]

/-- FC.SEND_FRAME_BITS by the room in TXQ (45_frame_codec.md R216). -/
theorem fcSendFrameBits_queued {s : State} {room : Nat} (hq : QueueInv s.build.txqN s.txq)
    (hroom : room = s.build.txqN - 1 - s.txq.count s.build.txqN) {bits : List Bool}
    (hbits : bits = frameBits s.build.crcPoly s.fc.crcBE s.txPayload) :
    ∃ q, fcSendFrameBits s =
        ((s.setFc { s.fc with ones := 0 }).queued q (bits.length - room),
          respond (decide (bits.length ≤ room)) (zext32 bits.length)) ∧
      QueueInv s.build.txqN q ∧
      q.items s.build.txqN = s.txq.items s.build.txqN ++ (bits.take room).map (symbolItem s.build) := by
  obtain ⟨q, hrun, hinv, hitems⟩ := mdAddSymbols_queued bits (s := s.setFc { s.fc with ones := 0 }) hq hroom
  refine ⟨q, ?_, hinv, hitems⟩
  subst hbits
  rw [fcSendFrameBits, hrun]
  simp

end Sys2Proof.Machine

namespace Sys2Proof.Proofs

open Sys2Proof.Machine

/-- Settles O24, by induction on the payload, the octets of a frame and the bits of an octet. -/
theorem sendFollowsTheOctetEmissionProcedure : Obligations.SendFollowsTheOctetEmissionProcedure := fun s =>
  ⟨fcSendFrameBytes_eq_procedure s, fcSendFrameBits_eq_procedure s⟩

/-- Settles O23: the octets written out in the statement are those of the model's frame. -/
theorem sendFrameBytesEmitsTheFrame : Obligations.SendFrameBytesEmitsTheFrame := by
  intro s d
  refine ⟨decode_cmdWord rfl fun _ => rfl, s.txPayload, frameBody s.build.crcPoly s.fc.crcBE s.txPayload, _,
    Memory.length_firstN _ _, fun k hk => ?_, rfl, rfl, ?_⟩
  · rw [State.txPayload, List.getElem?_eq_getElem (by rwa [Memory.length_firstN]), Memory.getElem_firstN]
  · have hlength : (frameOctets s.build.crcPoly s.fc.crcBE s.txPayload).length =
        (frameBody s.build.crcPoly s.fc.crcBE s.txPayload).length + 2 := by simp [frameOctets]
    rw [← hlength]
    rfl

/-- Settles O25, from a run of symbols as far as TXQ has room. -/
theorem sendFrameBitsQueuesTheFrame : Obligations.SendFrameBitsQueuesTheFrame := by
  refine fun s d hq => ⟨decode_cmdWord rfl fun _ => rfl, fun bits room hbits hroom => ?_⟩
  obtain ⟨q, hsend, hinv, hitems⟩ := fcSendFrameBits_queued hq hroom hbits
  exact ⟨q, congrArg finish hsend, hinv, hitems⟩

end Sys2Proof.Proofs
end

section
/-! CERTIFICATE. A frame received octet by octet (45_frame_codec.md R218, R222, R223): the closing boundary delivers what
the parser holds, and a frame sent in byte mode leaves the parser holding its payload and the payload's CRC. -/

namespace Sys2Proof.Machine

/-! ### The closing boundary (45_frame_codec.md R218, R222) -/

/-- The block after the frame consumer took a payload of `n` bytes (46_facade.md R263). -/
def State.delivered (n : Nat) (s : State) : State :=
  s.setFac { s.fac with pend := Memory.copy s.fc.buf n s.fac.pend, pendLen := n, pendValid := true }

/-- A boundary after a correct CRC delivers the payload to a consumer with no message pending. -/
theorem fcBoundary_of_match {s : State} (hpos : 2 ≤ s.fc.pos) (hcrc : s.fc.receivedCrc = s.fc.rxCrc)
    (hfree : s.fac.pendValid = false) :
    fcBoundary s =
      (((s.event .frameOk).delivered (s.fc.pos - 2)).setFc s.fc.endFrame, { frameOk := true }) := by
  rw [fcBoundary, if_pos hpos, if_pos hcrc]
  rcases consume_cases (s.fc.pos - 2) (s.event .frameOk) with ⟨hpending, -⟩ | ⟨-, h⟩
  · exact absurd (hfree.symm.trans hpending) (by decide)
  · rw [h]
    rfl

/-- A boundary after a correct CRC drops the frame when a message is pending (46_facade.md R263). -/
theorem fcBoundary_of_match_pending {s : State} (hpos : 2 ≤ s.fc.pos) (hcrc : s.fc.receivedCrc = s.fc.rxCrc)
    (hpending : s.fac.pendValid = true) :
    fcBoundary s =
      (((s.event .frameOk).event .msgDropped).setFc s.fc.endFrame, { frameOk := true, msgDropped := true }) := by
  rw [fcBoundary, if_pos hpos, if_pos hcrc]
  rcases consume_cases (s.fc.pos - 2) (s.event .frameOk) with ⟨-, h⟩ | ⟨hfree, -⟩
  · rw [h]
    rfl
  · exact absurd (hfree.symm.trans hpending) (by decide)

/-- What FC.RX_BYTE answers: the flags of the octet (45_frame_codec.md R217). -/
theorem exec_fcRxByte {b : BitVec 8} {s t : State} {f : RxFlags} {d : Data} (h : fcRxByte b s = (t, f))
    (hd : f.rdata = d) : exec (.fcRxByte b) s = .next (t.reply (respond true d)) := by
  rw [← hd]
  exact congrArg (fun r : State × RxFlags => finish (r.1, respond true r.2.rdata)) h

/-! ### A whole frame (45_frame_codec.md R223) -/

/-- Bytes stored before the end of a frame leave only the buffer behind. -/
theorem foldl_stored_endFrame (poly : BitVec 16) (q : List (BitVec 8)) (f : FcRegs) :
    (q.foldl (FcRegs.stored poly) f).endFrame = { f.endFrame with buf := (q.foldl (FcRegs.stored poly) f).buf } := by
  induction q generalizing f with
  | nil => rfl
  | cons b q ih => exact ih (f.stored poly b)

/-- A receiver between frames with the room for a payload of `n` bytes and its CRC (45_frame_codec.md R223). -/
structure ReadyFor (n : Nat) (r : State) : Prop where
  room : n + 2 ≤ r.build.maxFrameLen
  pos : r.fc.pos = 0
  rxCrc : r.fc.rxCrc = 0xFFFF
  inEsc : r.fc.inEsc = false
  discard : r.fc.discard = false
  wf : Memory.wf r.fc.buf = true

section
variable {r : State} {m : List (BitVec 8)}

/-- The opening boundary and the body of a frame store the payload and its CRC, and deliver nothing. -/
theorem parses_frame_open (h : ReadyFor m.length r) :
    ∃ t, Parses ([flagOctet] ++ frameBody r.build.crcPoly r.fc.crcBE m) r t ∧
      t.fc =
        (m ++ crcBytes r.fc.crcBE (crcFold r.build.crcPoly 0xFFFF m)).foldl (FcRegs.stored r.build.crcPoly) r.fc := by
  obtain ⟨s, hopen, hs⟩ := parses_opening_flag h.pos h.rxCrc h.inEsc h.discard
  obtain ⟨t, hbody, ht⟩ := parses_escaped (s := s) (m ++ crcBytes r.fc.crcBE (crcFold r.build.crcPoly 0xFFFF m))
    (by rw [hs, hopen.build, h.pos]; simpa using h.room) (by rw [hs, h.inEsc]) (by rw [hs, h.discard])
  rw [hs, hopen.build] at ht
  exact ⟨t, hopen.trans hbody, ht⟩

/-- The first elements a parser holds are the payload, without the CRC. -/
theorem FcRegs.Holds.firstN_payload {poly : BitVec 16} {f : FcRegs} {q : List (BitVec 8)} (h : f.Holds poly (m ++ q)) :
    Memory.firstN f.buf m.length = m := by
  have htake := congrArg (List.take m.length) h.buf
  rwa [List.take_left, Memory.firstN, ← List.map_take, List.take_range, List.length_append,
    Nat.min_eq_left (Nat.le_add_right _ _)] at htake

/-- What a frame with the payload `m` does to a receiver: one delivery, and a pending message that is `m`. -/
structure Delivers (m : List (BitVec 8)) (r u : State) : Prop where
  pendValid : u.fac.pendValid = true
  pendLen : u.fac.pendLen = m.length
  payload : Memory.firstN u.fac.pend m.length = m
  trace : u.trace = r.trace ++ [.frameOk]

/-- A frame in byte mode delivers its payload on the closing boundary and leaves the receiver between frames. -/
theorem frame_delivers (h : ReadyFor m.length r) (hfree : r.fac.pendValid = false)
    (hpend : Memory.wf r.fac.pend = true) :
    ∃ t u, Parses ([flagOctet] ++ frameBody r.build.crcPoly r.fc.crcBE m) r t ∧
      execAll ((frameOctets r.build.crcPoly r.fc.crcBE m).map Instr.fcRxByte) r = .next u ∧
      Delivers m r u ∧ u.fc = { r.fc with buf := u.fc.buf } := by
  obtain ⟨t, hrun, ht⟩ := parses_frame_open h
  have hbe : t.fc.crcBE = r.fc.crcBE := by rw [ht, foldl_stored_crcBE]
  have hholds : t.fc.Holds r.build.crcPoly (m ++ crcBytes t.fc.crcBE (crcFold r.build.crcPoly 0xFFFF m)) := by
    rw [hbe, ht]
    exact (FcRegs.Holds.nil h.pos h.rxCrc h.wf).foldl_stored _
  have hpos : t.fc.pos = m.length + 2 := by simpa using hholds.pos
  have hcrc : t.fc.receivedCrc = t.fc.rxCrc := by rw [hholds.receivedCrc, hholds.rxCrc_payload]
  have hclose := exec_fcRxByte (fcRxByte_flag.trans (fcBoundary_of_match (by omega) hcrc (by rwa [hrun.fac]))) rfl
  rw [hpos, Nat.add_sub_cancel] at hclose
  have hsplit : execAll ((frameOctets r.build.crcPoly r.fc.crcBE m).map Instr.fcRxByte) r =
      execAll ([flagOctet].map Instr.fcRxByte) t := by rw [frameOctets, List.map_append, execAll_append hrun.run]
  refine ⟨t, _, hrun, hsplit.trans (execAll_singleton hclose),
    ⟨rfl, rfl, ?_, congrArg (· ++ [Event.frameOk]) hrun.trace⟩, ?_⟩
  · exact (Memory.firstN_copy _ _ (by rwa [State.event_fac, hrun.fac])).trans hholds.firstN_payload
  · have hend := congrArg FcRegs.endFrame ht
    rwa [foldl_stored_endFrame, ← ht, FcRegs.endFrame_eq_self h.pos h.rxCrc h.inEsc h.discard] at hend

end

/-- A receiver that meets the conditions of 45_frame_codec.md R223. -/
theorem readyFor_txPayload {s r : State} (hroom : s.fac.txLen + 2 ≤ r.build.maxFrameLen) (hpos : r.fc.pos = 0)
    (hcrc : r.fc.rxCrc = 0xFFFF) (hin : r.fc.inEsc = false) (hdiscard : r.fc.discard = false)
    (hwf : Memory.wf r.fc.buf = true) : ReadyFor s.txPayload.length r :=
  ⟨by rwa [State.txPayload, Memory.length_firstN], hpos, hcrc, hin, hdiscard, hwf⟩

end Sys2Proof.Machine

namespace Sys2Proof.Proofs

open Sys2Proof.Machine

/-- Settles O31: the octets before the closing boundary store the payload and its CRC, and the closing boundary finds
them to agree. -/
theorem byteFramesRoundTrip : Obligations.ByteFramesRoundTrip := by
  intro s u r hsend hpoly hbe hroom hpos hcrc hin hdiscard hfree hwf hpend
  cases hsend
  obtain ⟨t, v, hopen, hrun, hdelivers, hfc⟩ :=
    frame_delivers (readyFor_txPayload (s := s) hroom hpos hcrc hin hdiscard hwf) hfree hpend
  have hlength : s.txPayload.length = s.fac.txLen := Memory.length_firstN _ _
  rw [← hlength]
  rw [← hpoly, ← hbe] at hopen hrun
  refine ⟨frameOctets s.build.crcPoly s.fc.crcBE s.txPayload, rfl, ⟨t, ?_, hopen.fac, hopen.trace⟩, v, hrun,
    hdelivers.pendValid, hdelivers.pendLen, hdelivers.payload, hdelivers.trace, hfc⟩
  rw [frameOctets, ← List.dropLast_eq_take, List.dropLast_concat]
  exact hopen.run

end Sys2Proof.Proofs
end

section
/-! CERTIFICATE. A frame received bit by bit (45_frame_codec.md R221, R223). The run of ones at the end of the shift register
is the sender's stuffing counter: it tells a data bit, a stuffed zero and a boundary apart, so the byte parser sees the
frame's octets and no other. -/

namespace Sys2Proof.Machine

/-! ### The run of ones in the shift register (45_frame_codec.md R221) -/

/-- The bits of `FC.sr`, the newest first. -/
def newestFirst (sr : BitVec 8) : List Bool := (List.range 8).map fun i => sr.getLsbD (7 - i)

/-- How many ones were received in a row up to now, as far as `FC.sr` shows. -/
def onesRun (sr : BitVec 8) : Nat := ((newestFirst sr).takeWhile id).length

theorem onesRun_zero : onesRun 0 = 0 := by decide

theorem onesRun_shiftIn_false (sr : BitVec 8) : onesRun (shiftInBit false sr) = 0 := by
  revert sr; decide

theorem onesRun_shiftIn_true : ∀ {sr : BitVec 8}, onesRun sr < 8 → onesRun (shiftInBit true sr) = onesRun sr + 1 := by
  decide

/-- The boundary pattern is a zero after exactly six ones. -/
theorem shiftIn_eq_flag_iff :
    ∀ (b : Bool) (sr : BitVec 8), shiftInBit b sr = flagOctet ↔ b = false ∧ onesRun sr = 6 := by
  decide

/-- The stuffed-zero pattern is a zero after five ones or more. -/
theorem shiftIn_stuffed_iff :
    ∀ (b : Bool) (sr : BitVec 8), shiftInBit b sr &&& 0xFC = 0x7C ↔ b = false ∧ 5 ≤ onesRun sr := by
  decide

/-! ### What the byte parser reads and writes (45_frame_codec.md R217 to R222) -/

/-- A state with the ports emptied and `FC.sr` 0, none of which the byte parser reads. -/
def State.parser (s : State) : State :=
  { s with fc := { s.fc with sr := 0 }, portT := PortState.idle, portA := PortState.idle }

/-- The block after one octet. -/
def State.rxOctet (s : State) (o : BitVec 8) : State := (fcRxByte o s).1

/-- The block after one data bit: it enters the collector, and the eighth goes to the byte parser as an octet. -/
def State.takeBit (s : State) (b : Bool) : State :=
  if s.fc.nbits + 1 = 8 then (s.rxOctet (shiftInBit b s.fc.acc)).setCollector 0 0
  else s.setCollector (shiftInBit b s.fc.acc) (s.fc.nbits + 1)

section
variable (s : State)

@[simp] theorem State.parser_reply (r : Resp) : (s.reply r).parser = s.parser := rfl
@[simp] theorem State.parser_shiftIn (b : Bool) : (s.shiftIn b).parser = s.parser := rfl

theorem State.parser_setCollector (acc : BitVec 8) (n : Nat) :
    (s.setCollector acc n).parser = s.parser.setCollector acc n := rfl

theorem consume_parser (n : Nat) : consume n s.parser = Prod.map State.parser id (consume n s) := by
  unfold consume
  rw [apply_ite (Prod.map State.parser id)]
  rfl

theorem fcBoundary_parser : fcBoundary s.parser = Prod.map State.parser id (fcBoundary s) := by
  have hconsume := consume_parser (s.event .frameOk) (s.fc.pos - 2)
  unfold fcBoundary
  rw [apply_ite (Prod.map State.parser id), apply_ite (Prod.map State.parser id)]
  refine if_congr Iff.rfl (if_congr Iff.rfl ?_ rfl) rfl
  exact congrArg (fun r : State × Bool =>
    (r.1.setFc r.1.fc.endFrame, ({ frameOk := true, msgDropped := r.2 } : RxFlags))) hconsume

theorem fcStore_parser (b : BitVec 8) : fcStore b s.parser = Prod.map State.parser id (fcStore b s) := by
  unfold fcStore
  rw [apply_ite (Prod.map State.parser id)]
  rfl

/-- The byte parser reads neither the ports nor `FC.sr`. -/
theorem fcRxByte_parser (b : BitVec 8) : fcRxByte b s.parser = Prod.map State.parser id (fcRxByte b s) := by
  unfold fcRxByte
  simp only [apply_ite (Prod.map State.parser id)]
  exact if_congr Iff.rfl (fcBoundary_parser s) (if_congr Iff.rfl rfl (if_congr Iff.rfl rfl
    (if_congr Iff.rfl (fcStore_parser (s.setFc { s.fc with inEsc := false }) (b ^^^ escMask)) (fcStore_parser s b))))

theorem State.parser_rxOctet (o : BitVec 8) : (s.rxOctet o).parser = s.parser.rxOctet o :=
  (congrArg Prod.fst (fcRxByte_parser s o)).symm

theorem State.parser_takeBit (b : Bool) : (s.takeBit b).parser = s.parser.takeBit b := by
  unfold State.takeBit
  rw [apply_ite State.parser, State.parser_setCollector, State.parser_rxOctet]
  rfl

theorem State.rxOctet_sr (o : BitVec 8) : (s.rxOctet o).fc.sr = s.fc.sr := by
  rw [State.rxOctet, fcRxByte_frame]

theorem State.takeBit_sr (b : Bool) : (s.takeBit b).fc.sr = s.fc.sr := by
  unfold State.takeBit
  split
  · exact s.rxOctet_sr _
  · rfl

/-- The byte parser neither reads nor writes the bit collector. -/
theorem State.rxOctet_setCollector (acc : BitVec 8) (n : Nat) (o : BitVec 8) :
    (s.setCollector acc n).rxOctet o = (s.rxOctet o).setCollector acc n :=
  congrArg Prod.fst (fcRxByte_setCollector acc n s o)

/-! ### Data bits form octets (45_frame_codec.md R221) -/

/-- A bit shifted in enters at bit 7, and every other bit moves one place down. -/
theorem shiftInBit_getElem (b : Bool) (r : BitVec 8) {i : Nat} (hi : i < 8) :
    (shiftInBit b r)[i] = if h : i < 7 then r[i + 1] else b := by
  rw [← BitVec.getLsbD_eq_getElem, shiftInBit, BitVec.getLsbD_append]
  split_ifs with h
  · simpa [h, Nat.add_comm 1] using BitVec.getLsbD_eq_getElem (x := r) (show i + 1 < 8 by omega)
  · simp [show i - 7 = 0 by omega]

/-- `FC.acc` after data bits. -/
def collect (acc : BitVec 8) (bs : List Bool) : BitVec 8 := bs.foldl (fun acc b => shiftInBit b acc) acc

theorem State.setCollector_self {acc : BitVec 8} {n : Nat} (hacc : s.fc.acc = acc) (hn : s.fc.nbits = n) :
    s.setCollector acc n = s := by
  subst hacc hn
  rfl

/-- Fewer than eight data bits stay in the collector. -/
theorem foldl_takeBit_partial (bs : List Bool) {acc : BitVec 8} {n : Nat} (h : n + bs.length ≤ 7) :
    bs.foldl State.takeBit (s.setCollector acc n) = s.setCollector (collect acc bs) (n + bs.length) := by
  induction bs generalizing acc n with
  | nil => rfl
  | cons b bs ih =>
    rw [List.length_cons] at h
    have hbit : (s.setCollector acc n).takeBit b = s.setCollector (shiftInBit b acc) (n + 1) :=
      if_neg (show ¬ n + 1 = 8 by omega)
    rw [List.foldl_cons, hbit, ih (by omega), List.length_cons, Nat.add_right_comm, Nat.add_assoc]
    rfl

/-- The eighth data bit completes an octet. -/
theorem takeBit_eighth (acc : BitVec 8) (b : Bool) :
    (s.setCollector acc 7).takeBit b = (s.rxOctet (shiftInBit b acc)).setCollector 0 0 := by
  have h := congrArg (State.setCollector 0 0) (s.rxOctet_setCollector acc 7 (shiftInBit b acc))
  exact h

/-- The bits of an octet, least significant first, are the octet. -/
theorem foldl_takeBit_octet (o : BitVec 8) :
    (octetBits o).foldl State.takeBit (s.setCollector 0 0) = (s.rxOctet o).setCollector 0 0 := by
  have hbits : octetBits o = (octetBits o).take 7 ++ [o.getLsbD 7] := rfl
  have hlength : ((octetBits o).take 7).length = 7 := rfl
  have hoctet : shiftInBit (o.getLsbD 7) (collect 0 ((octetBits o).take 7)) = o := by
    apply BitVec.eq_of_getElem_eq
    intro i hi
    interval_cases i <;> simp [collect, octetBits, List.range_succ, shiftInBit_getElem]
  rw [hbits, List.foldl_append, foldl_takeBit_partial s _ (by rw [hlength]), hlength, Nat.zero_add,
    List.foldl_cons, List.foldl_nil, takeBit_eighth, hoctet]

/-- The bits of octets are the octets. -/
theorem foldl_takeBit_octets (os : List (BitVec 8)) :
    (os.flatMap octetBits).foldl State.takeBit (s.setCollector 0 0) = (os.foldl State.rxOctet s).setCollector 0 0 := by
  induction os generalizing s with
  | nil => rfl
  | cons o os ih => rw [List.flatMap_cons, List.foldl_append, foldl_takeBit_octet, ih, List.foldl_cons]

end

/-- Octets by FC.RX_BYTE, as far as the byte parser goes. -/
theorem parser_of_execAll_fcRxByte {os : List (BitVec 8)} {s t : State}
    (h : execAll (os.map Instr.fcRxByte) s = .next t) : t.parser = os.foldl State.rxOctet s.parser := by
  induction os generalizing s with
  | nil => cases h; rfl
  | cons o os ih =>
    obtain ⟨u, hu, hrest⟩ := execAll_cons_next h
    cases hu
    rw [ih hrest, State.parser_reply, List.foldl_cons, ← State.parser_rxOctet]
    rfl

/-! ### One received bit by the run of ones before it (45_frame_codec.md R212, R221) -/

/-- FC.RX_BIT of each bit of `bs` leads from `s` to `t`. -/
abbrev Receives (bs : List Bool) (s t : State) : Prop := execAll (bs.map Instr.fcRxBit) s = .next t

theorem Receives.trans {bs bs' : List Bool} {s t u : State} (h : Receives bs s t) (h' : Receives bs' t u) :
    Receives (bs ++ bs') s u := by rw [Receives, List.map_append, execAll_append h, h']

section
variable {s : State}

/-- A one, and a zero after fewer than five ones, are data. -/
theorem receives_data {b : Bool} (h : b = true ∨ onesRun s.fc.sr < 5) :
    ∃ t, Receives [b] s t ∧ t.parser = s.parser.takeBit b ∧ t.fc.sr = shiftInBit b s.fc.sr := by
  have hflag : ¬ shiftInBit b s.fc.sr = flagOctet := fun hf => by
    obtain ⟨rfl, hrun⟩ := (shiftIn_eq_flag_iff b s.fc.sr).1 hf
    simp [hrun] at h
  have hstuffed : ¬ shiftInBit b s.fc.sr &&& 0xFC = 0x7C := fun hf => by
    obtain ⟨rfl, hrun⟩ := (shiftIn_stuffed_iff b s.fc.sr).1 hf
    simp at h
    omega
  have hbit : (fcRxBit b s).1 = (s.shiftIn b).takeBit b := by
    rw [fcRxBit_eq, if_neg hflag, if_neg hstuffed, apply_ite Prod.fst]
    rfl
  refine ⟨_, execAll_singleton rfl, ?_, ?_⟩
  · rw [State.parser_reply, hbit, State.parser_takeBit, State.parser_shiftIn]
  · rw [State.reply_fc, hbit, State.takeBit_sr]
    rfl

/-- A zero after exactly five ones is discarded. -/
theorem receives_stuffed (h : onesRun s.fc.sr = 5) :
    ∃ t, Receives [false] s t ∧ t.parser = s.parser ∧ onesRun t.fc.sr = 0 := by
  have hflag : ¬ shiftInBit false s.fc.sr = flagOctet := fun hf => by
    have := ((shiftIn_eq_flag_iff false s.fc.sr).1 hf).2
    omega
  have hstuffed := (shiftIn_stuffed_iff false s.fc.sr).2 ⟨rfl, h.ge⟩
  have hbit : (fcRxBit false s).1 = s.shiftIn false := by rw [fcRxBit_eq, if_neg hflag, if_pos hstuffed]
  refine ⟨_, execAll_singleton rfl, ?_, ?_⟩
  · rw [State.parser_reply, hbit, State.parser_shiftIn]
  · rw [State.reply_fc, hbit]
    exact onesRun_shiftIn_false _

/-- A zero after exactly six ones is a boundary. -/
theorem receives_boundary (h : onesRun s.fc.sr = 6) :
    ∃ t, Receives [false] s t ∧ t.parser = (s.parser.rxOctet flagOctet).setCollector 0 0 ∧ onesRun t.fc.sr = 0 := by
  have hflag := (shiftIn_eq_flag_iff false s.fc.sr).2 ⟨rfl, h⟩
  have hbit : (fcRxBit false s).1 = ((s.shiftIn false).rxOctet flagOctet).setCollector 0 0 := by
    rw [fcRxBit_eq, if_pos hflag]
    rfl
  refine ⟨_, execAll_singleton rfl, ?_, ?_⟩
  · rw [State.parser_reply, hbit, State.parser_setCollector, State.parser_rxOctet, State.parser_shiftIn]
  · have hsr : ((s.shiftIn false).rxOctet flagOctet).fc.sr = shiftInBit false s.fc.sr := State.rxOctet_sr _ _
    rw [State.reply_fc, hbit]
    exact (congrArg onesRun hsr).trans (onesRun_shiftIn_false _)

/-- Bits sent with stuffing arrive as the bits before stuffing: the run of ones is the sender's counter. -/
theorem receives_stuffBits (bs : List Bool) (h : onesRun s.fc.sr < 5) :
    ∃ t, Receives (stuffBits (onesRun s.fc.sr) bs).1 s t ∧ t.parser = bs.foldl State.takeBit s.parser ∧
      onesRun t.fc.sr < 5 := by
  induction bs generalizing s with
  | nil => exact ⟨s, rfl, rfl, h⟩
  | cons b bs ih =>
    obtain ⟨t, ht, hparser, hsr⟩ := receives_data (b := b) (.inr h)
    cases b with
    | false =>
      have hzero : onesRun t.fc.sr = 0 := by rw [hsr, onesRun_shiftIn_false]
      obtain ⟨u, hu, hparser', hrun⟩ := ih (s := t) (by omega)
      rw [hzero] at hu
      rw [hparser] at hparser'
      exact ⟨u, ht.trans hu, hparser', hrun⟩
    | true =>
      have hone : onesRun t.fc.sr = onesRun s.fc.sr + 1 := by rw [hsr, onesRun_shiftIn_true (by omega)]
      rw [stuffBits]
      split
      · next hfive =>
        obtain ⟨v, hv, hparserv, hzero⟩ := receives_stuffed (s := t) (by omega)
        obtain ⟨u, hu, hparser', hrun⟩ := ih (s := v) (by omega)
        rw [hzero] at hu
        rw [hparserv, hparser] at hparser'
        exact ⟨u, (ht.trans hv).trans hu, hparser', hrun⟩
      · obtain ⟨u, hu, hparser', hrun⟩ := ih (s := t) (by omega)
        rw [hone] at hu
        rw [hparser] at hparser'
        exact ⟨u, ht.trans hu, hparser', hrun⟩

/-- Ones in a row are data, as far as the shift register counts them. -/
theorem receives_ones (n : Nat) (h : onesRun s.fc.sr + n ≤ 8) :
    ∃ t, Receives (List.replicate n true) s t ∧ t.parser = (List.replicate n true).foldl State.takeBit s.parser ∧
      onesRun t.fc.sr = onesRun s.fc.sr + n := by
  induction n generalizing s with
  | zero => exact ⟨s, rfl, rfl, rfl⟩
  | succ n ih =>
    obtain ⟨t, ht, hparser, hsr⟩ := receives_data (s := s) (b := true) (.inl rfl)
    have hone : onesRun t.fc.sr = onesRun s.fc.sr + 1 := by rw [hsr, onesRun_shiftIn_true (by omega)]
    obtain ⟨u, hu, hparser', hrun⟩ := ih (s := t) (by omega)
    rw [hparser] at hparser'
    exact ⟨u, ht.trans hu, hparser', by omega⟩

/-! ### A boundary and a whole frame in bits -/

/-- The bits of a boundary octet before its last. -/
def flagStart : List Bool := false :: List.replicate 6 true

theorem octetBits_flag : octetBits flagOctet = flagStart ++ [false] := by decide

/-- The bits of a boundary octet before its last reach the collector only, and six ones stand before the last. -/
theorem receives_flagStart {p : State} (h : onesRun s.fc.sr < 5) (hp : s.parser = p.setCollector 0 0) :
    ∃ t acc, Receives flagStart s t ∧ t.parser = p.setCollector acc 7 ∧ onesRun t.fc.sr = 6 := by
  obtain ⟨t, ht, hparser, hsr⟩ := receives_data (b := false) (.inr h)
  have hzero : onesRun t.fc.sr = 0 := by rw [hsr, onesRun_shiftIn_false]
  obtain ⟨u, hu, hparser', hrun⟩ := receives_ones (s := t) 6 (by omega)
  have hlength : flagStart.length = 7 := rfl
  have hstart : u.parser = flagStart.foldl State.takeBit s.parser := by
    rw [hparser', hparser, flagStart, List.foldl_cons]
  rw [hp, foldl_takeBit_partial p _ (by rw [hlength]), hlength, Nat.zero_add] at hstart
  exact ⟨u, _, ht.trans hu, hstart, by omega⟩

/-- A boundary octet in bits is a boundary for the byte parser and leaves the collector empty. -/
theorem receives_flag {p : State} (h : onesRun s.fc.sr < 5) (hp : s.parser = p.setCollector 0 0) :
    ∃ t, Receives (octetBits flagOctet) s t ∧ t.parser = (p.rxOctet flagOctet).setCollector 0 0 ∧
      onesRun t.fc.sr = 0 := by
  obtain ⟨t, acc, ht, hparser, hrun⟩ := receives_flagStart h hp
  obtain ⟨u, hu, hparser', hzero⟩ := receives_boundary hrun
  rw [hparser, State.rxOctet_setCollector] at hparser'
  rw [octetBits_flag]
  exact ⟨u, ht.trans hu, hparser', hzero⟩

/-- The symbols of a frame show the byte parser the frame's octets, the closing boundary on the last symbol. -/
theorem receives_frameBits {p : State} (poly : BitVec 16) (be : Bool) (m : List (BitVec 8)) (h : onesRun s.fc.sr < 5)
    (hp : s.parser = p.setCollector 0 0) :
    ∃ t acc u, Receives (frameBits poly be m).dropLast s t ∧
      t.parser = (([flagOctet] ++ frameBody poly be m).foldl State.rxOctet p).setCollector acc 7 ∧
      Receives (frameBits poly be m) s u ∧
      u.parser = ((frameOctets poly be m).foldl State.rxOctet p).setCollector 0 0 := by
  obtain ⟨a, hopen, hparsera, hrun⟩ := receives_flag h hp
  obtain ⟨b, hbody, hparserb, hrunb⟩ := receives_stuffBits (s := a) ((frameBody poly be m).flatMap octetBits) (by omega)
  rw [hrun] at hbody
  rw [hparsera, foldl_takeBit_octets] at hparserb
  obtain ⟨t, acc, hstart, hparsert, -⟩ := receives_flagStart hrunb hparserb
  obtain ⟨u, hclose, hparseru, -⟩ := receives_flag hrunb hparserb
  refine ⟨t, acc, u, ?_, hparsert, (hopen.trans hbody).trans hclose, ?_⟩
  · rw [frameBits, octetBits_flag, ← List.append_assoc, List.dropLast_concat, ← octetBits_flag]
    exact (hopen.trans hbody).trans hstart
  · rw [hparseru, frameOctets, List.foldl_append, List.foldl_append, List.foldl_cons, List.foldl_nil, List.foldl_cons,
      List.foldl_nil]

end

/-- A frame in bit mode delivers its payload on its last symbol, as the frame in byte mode does. -/
theorem frameBits_delivers {r : State} {m : List (BitVec 8)} (h : ReadyFor m.length r) (hfc : r.fc = r.fc.cleared)
    (hfree : r.fac.pendValid = false) (hpend : Memory.wf r.fac.pend = true) :
    ∃ t u, Receives (frameBits r.build.crcPoly r.fc.crcBE m).dropLast r t ∧ t.fac = r.fac ∧ t.trace = r.trace ∧
      Receives (frameBits r.build.crcPoly r.fc.crcBE m) r u ∧ Delivers m r u := by
  obtain ⟨tb, ub, hopen, hrun, hdelivers, -⟩ := frame_delivers h hfree hpend
  have hacc : r.parser.fc.acc = 0 := by rw [State.parser, hfc]; rfl
  have hnbits : r.parser.fc.nbits = 0 := by rw [State.parser, hfc]; rfl
  have hempty : r.parser = r.parser.setCollector 0 0 := (State.setCollector_self r.parser hacc hnbits).symm
  have hrun0 : onesRun r.fc.sr = 0 := by rw [hfc]; exact onesRun_zero
  obtain ⟨t, acc, u, hstart, hparsert, hall, hparseru⟩ :=
    receives_frameBits r.build.crcPoly r.fc.crcBE m (s := r) (by omega) hempty
  rw [← parser_of_execAll_fcRxByte hopen.run] at hparsert
  rw [← parser_of_execAll_fcRxByte hrun] at hparseru
  have hfac : u.fac = ub.fac := (congrArg State.fac hparseru :)
  have htrace : u.trace = ub.trace := (congrArg State.trace hparseru :)
  refine ⟨t, u, hstart, (congrArg State.fac hparsert).trans hopen.fac,
    (congrArg State.trace hparsert).trans hopen.trace, hall, ?_⟩
  exact ⟨by rw [hfac, hdelivers.pendValid], by rw [hfac, hdelivers.pendLen], by rw [hfac, hdelivers.payload],
    by rw [htrace, hdelivers.trace]⟩

end Sys2Proof.Machine

namespace Sys2Proof.Proofs

open Sys2Proof.Machine

/-- Settles O32: every symbol was queued, and the receiver's byte parser sees the octets of the frame. -/
theorem bitFramesRoundTrip : Obligations.BitFramesRoundTrip := by
  intro s u r hsend hq hfits hpoly hbe hroom hcleared hfree hwf hpend
  obtain ⟨q, hqueued, -, hitems⟩ := fcSendFrameBits_queued hq rfl rfl
  cases hsend.symm.trans (congrArg finish hqueued)
  have hready : ReadyFor s.txPayload.length r :=
    readyFor_txPayload hroom (congrArg FcRegs.pos hcleared) (congrArg FcRegs.rxCrc hcleared)
      (congrArg FcRegs.inEsc hcleared) (congrArg FcRegs.discard hcleared) hwf
  obtain ⟨t, v, hstart, hfac, htrace, hall, hdelivers⟩ := frameBits_delivers hready hcleared hfree hpend
  have hlength : s.txPayload.length = s.fac.txLen := Memory.length_firstN _ _
  rw [← hlength]
  rw [← hpoly, ← hbe] at hstart hall
  refine ⟨frameBits s.build.crcPoly s.fc.crcBE s.txPayload, ?_, ⟨t, ?_, hfac, htrace⟩, v, hall, hdelivers.pendValid,
    hdelivers.pendLen, hdelivers.payload, hdelivers.trace⟩
  · have hqueue : (frameBits s.build.crcPoly s.fc.crcBE s.txPayload).length ≤
        s.build.txqN - 1 - s.txq.count s.build.txqN := by
      simpa using (Bool.or_eq_false_iff.1 hfits).2
    rw [List.take_of_length_le hqueue] at hitems
    exact hitems
  · rw [← List.dropLast_eq_take]
    exact hstart

end Sys2Proof.Proofs
end

section
/-! CERTIFICATE. Escaping and stuffing (45_frame_codec.md R211, R212, R223): what neither lets through, and that neither
loses anything. -/

namespace Sys2Proof.Machine

/-! ### Escaping (45_frame_codec.md R211) -/

/-- Escaping lets no boundary octet through. -/
theorem flag_notMem_escapeByte (b : BitVec 8) : flagOctet ∉ escapeByte b := by
  unfold escapeByte
  split_ifs with hb
  · rcases hb with rfl | rfl <;> decide
  · simpa using fun h : flagOctet = b => hb (.inl h.symm)

theorem flag_notMem_frameBody (poly : BitVec 16) (be : Bool) (m : List (BitVec 8)) :
    flagOctet ∉ frameBody poly be m := by
  intro h
  obtain ⟨b, -, hb⟩ := List.mem_flatMap.1 h
  exact flag_notMem_escapeByte b hb

theorem escapeByte_ne_nil (b : BitVec 8) : escapeByte b ≠ [] := by
  unfold escapeByte
  split <;> simp

/-- The first octets of an escaped text tell its first byte and where the rest begins. -/
theorem escapeByte_append_inj {a b : BitVec 8} {l l' : List (BitVec 8)} (h : escapeByte a ++ l = escapeByte b ++ l') :
    a = b ∧ l = l' := by
  unfold escapeByte at h
  split_ifs at h with ha hb hb
  · simpa using h
  · obtain ⟨hesc, -⟩ : escOctet = b ∧ _ := by simpa using h
    exact absurd (.inr hesc.symm) hb
  · obtain ⟨hesc, -⟩ : a = escOctet ∧ _ := by simpa using h
    exact absurd (.inr hesc) ha
  · simpa using h

theorem flatMap_escapeByte_injective : Function.Injective fun m : List (BitVec 8) => m.flatMap escapeByte := by
  intro m
  induction m with
  | nil =>
    rintro (_ | ⟨b, m'⟩) h
    · rfl
    · exact absurd (List.append_eq_nil_iff.1 h.symm).1 (escapeByte_ne_nil b)
  | cons a m ih =>
    rintro (_ | ⟨b, m'⟩) h
    · exact absurd (List.append_eq_nil_iff.1 h).1 (escapeByte_ne_nil a)
    · obtain ⟨rfl, hrest⟩ := escapeByte_append_inj h
      rw [ih hrest]

/-! ### Stuffing (45_frame_codec.md R212) -/

theorem six_ones_not_prefix {k : Nat} (hk : k < 6) (l : List Bool) :
    ¬ List.replicate 6 true <+: List.replicate k true ++ false :: l := fun h => by
  have hk' := h.getElem (i := k) (by rwa [List.length_replicate])
  rw [List.getElem_replicate, List.getElem_append_right (by rw [List.length_replicate])] at hk'
  simp at hk'

/-- Six ones in a row do not reach over a zero. -/
theorem six_ones_infix_of_zero {k : Nat} (hk : k < 6) {l : List Bool}
    (h : List.replicate 6 true <:+: List.replicate k true ++ false :: l) : List.replicate 6 true <:+: l := by
  induction k with
  | zero => exact (List.infix_cons_iff.1 h).resolve_left (six_ones_not_prefix hk l)
  | succ k ih => exact ih (by omega) ((List.infix_cons_iff.1 h).resolve_left (six_ones_not_prefix hk l))

/-- After fewer than five ones in a row, stuffed bits hold no six. -/
theorem no_six_ones_stuffBits (bs : List Bool) {k : Nat} (hk : k < 5) :
    ¬ List.replicate 6 true <:+: List.replicate k true ++ (stuffBits k bs).1 := by
  induction bs generalizing k with
  | nil =>
    intro h
    have hlength := h.length_le
    simp [stuffBits] at hlength
    omega
  | cons b bs ih =>
    cases b with
    | false => exact fun h => ih (k := 0) (by decide) (six_ones_infix_of_zero (by omega) h)
    | true =>
      have hone : ∀ l, List.replicate k true ++ true :: l = List.replicate (k + 1) true ++ l := fun l => by
        rw [List.replicate_succ', List.append_assoc]
        rfl
      rw [stuffBits]
      split
      · rw [hone]
        exact fun h => ih (k := 0) (by decide) (six_ones_infix_of_zero (by omega) h)
      · rw [hone]
        exact ih (by omega)

/-- A bit is sent as itself and what the count then asks for, and the rest is stuffed from a count that does not depend
on it. -/
theorem exists_stuffBits_cons (k : Nat) (b : Bool) :
    ∃ stuffed k', ∀ bs, (stuffBits k (b :: bs)).1 = b :: (stuffed ++ (stuffBits k' bs).1) := by
  cases b with
  | false => exact ⟨[], 0, fun _ => rfl⟩
  | true =>
    by_cases hfive : k + 1 = 5
    · exact ⟨[false], 0, fun bs => by rw [stuffBits, if_pos hfive]; rfl⟩
    · exact ⟨[], k + 1, fun bs => by rw [stuffBits, if_neg hfive]; rfl⟩

theorem stuffBits_injective (k : Nat) : Function.Injective fun bs : List Bool => (stuffBits k bs).1 := by
  intro bs
  induction bs generalizing k with
  | nil =>
    rintro (_ | ⟨b, bs'⟩) h
    · rfl
    · obtain ⟨stuffed, k', hcons⟩ := exists_stuffBits_cons k b
      exact absurd (h.trans (hcons bs')) (List.cons_ne_nil _ _).symm
  | cons a bs ih =>
    obtain ⟨stuffed, k', hcons⟩ := exists_stuffBits_cons k a
    rintro (_ | ⟨b, bs'⟩) h
    · exact absurd ((hcons bs).symm.trans h) (List.cons_ne_nil _ _)
    · have hfirst : a = b := by
        obtain ⟨_, _, hcons'⟩ := exists_stuffBits_cons k b
        exact (List.cons.inj ((hcons bs).symm.trans (h.trans (hcons' bs')))).1
      subst hfirst
      have hrest := (List.cons.inj ((hcons bs).symm.trans (h.trans (hcons bs')))).2
      rw [ih k' (List.append_cancel_left hrest)]

end Sys2Proof.Machine

namespace Sys2Proof.Proofs

open Sys2Proof.Machine

/-- Settles O26: an escaped byte holds no boundary, a stuffed zero ends every run of five ones, and the first symbols of
an encoding tell the first symbol of the text. -/
theorem framesHoldNoFalseBoundary : Obligations.FramesHoldNoFalseBoundary :=
  ⟨flag_notMem_frameBody, fun bits => no_six_ones_stuffBits bits (k := 0) (by decide),
    fun _ _ h => flatMap_escapeByte_injective h, fun _ _ h => stuffBits_injective 0 h⟩

end Sys2Proof.Proofs
end

section
/-! CERTIFICATE. The commands of UNIT 4 one by one (45_frame_codec.md R213, R214, R217 to R222): SETUP and CLEAR, a
boundary octet, any other octet, one bit. -/

namespace Sys2Proof.Machine

/-! ### Octets (45_frame_codec.md R217 to R220) -/

section
variable {s : State} {b : BitVec 8}

/-- A boundary with fewer than 2 bytes buffered only resets the frame registers (45_frame_codec.md R218). -/
theorem fcBoundary_of_short (hpos : s.fc.pos < 2) : fcBoundary s = (s.setFc s.fc.endFrame, {}) :=
  if_neg (Nat.not_le.2 hpos)

theorem fcRxByte_discarding (hflag : b ≠ flagOctet) (hdiscard : s.fc.discard = true) : fcRxByte b s = (s, {}) := by
  simp [fcRxByte, hflag, hdiscard]

/-- A byte to store: the octet, unescaped after an escape (45_frame_codec.md R219). -/
theorem fcRxByte_store (hflag : b ≠ flagOctet) (hesc : b ≠ escOctet) (hdiscard : s.fc.discard = false) :
    fcRxByte b s = fcStore (if s.fc.inEsc then b ^^^ escMask else b) (s.setFc { s.fc with inEsc := false }) := by
  cases hin : s.fc.inEsc with
  | true => exact fcRxByte_escaped hflag hesc hdiscard hin
  | false =>
    have hclear : s.setFc { s.fc with inEsc := false } = s := by rw [← hin]; rfl
    rw [hclear]
    exact fcRxByte_plain hflag hesc hdiscard hin

/-- A full buffer discards the frame (45_frame_codec.md R220). -/
theorem fcStore_of_full (hfull : s.fc.pos = s.build.maxFrameLen) :
    fcStore b s =
      ((s.setFc { s.fc with pos := 0, rxCrc := 0xFFFF, inEsc := false, discard := true }).event .oversize,
        { oversize := true }) := if_pos hfull

end

/-- The byte that a store folds into the CRC lies in the buffer as it was before the store (45_frame_codec.md R220). -/
theorem FcRegs.stored_eq (poly : BitVec 16) (f : FcRegs) (b : BitVec 8) :
    f.stored poly b =
      { f with
        buf := Memory.write f.buf f.pos b
        rxCrc := if 2 ≤ f.pos then crcUpd poly f.rxCrc (Memory.read f.buf (f.pos - 2)) else f.rxCrc
        pos := f.pos + 1 } := by
  unfold FcRegs.stored
  split
  · rw [Memory.read_write_other _ _ (by omega)]
  · rfl

/-! ### Bits (45_frame_codec.md R221) -/

/-- A bit shifted in, written with a shift. -/
theorem shiftInBit_eq (bit : Bool) (r : BitVec 8) : shiftInBit bit r = (r >>> 1) ||| (if bit then 0x80 else 0) := by
  apply BitVec.eq_of_getElem_eq
  intro i hi
  rw [shiftInBit_getElem]
  interval_cases i <;> cases bit <;> simp

/-- FLAG_SEEN is bit 5 of the answer. -/
theorem RxFlags.rdata_flagSeen (f : RxFlags) : { f with flagSeen := true }.rdata = f.rdata ||| 0x20 := by
  obtain ⟨f0, f1, f2, f3, f4, f5, f6, f7⟩ := f
  revert f0 f1 f2 f3 f4 f5 f6 f7
  decide

/-- BYTE_DISPATCHED is bit 7 of the answer. -/
theorem RxFlags.rdata_byteDispatched (f : RxFlags) : { f with byteDispatched := true }.rdata = f.rdata ||| 0x80 := by
  obtain ⟨f0, f1, f2, f3, f4, f5, f6, f7⟩ := f
  revert f0 f1 f2 f3 f4 f5 f6 f7
  decide

/-- What FC.RX_BIT answers: the flags of the bit (45_frame_codec.md R221). -/
theorem exec_fcRxBit {bit : Bool} {s t : State} {f : RxFlags} {d : Data} (h : fcRxBit bit s = (t, f))
    (hd : f.rdata = d) : exec (.fcRxBit bit) s = .next (t.reply (respond true d)) := by
  rw [← hd]
  exact congrArg (fun r : State × RxFlags => finish (r.1, respond true r.2.rdata)) h

end Sys2Proof.Machine

namespace Sys2Proof.Proofs

open Sys2Proof.Machine

/-- Settles O27: neither command has a case. -/
theorem frameCodecSetupAndClear : Obligations.FrameCodecSetupAndClear := fun _ _ =>
  ⟨decode_cmdWord rfl fun _ => rfl, decode_cmdWord rfl fun _ => rfl, rfl, rfl⟩

/-- Settles O28, by the bytes buffered, the CRC received and whether a message is pending. -/
theorem boundaryDeliversOrDiscards : Obligations.BoundaryDeliversOrDiscards := by
  rintro s _ _ rfl rfl
  refine ⟨fun hshort => ?_, fun hpos hcrc => ?_, fun hpos hcrc hpending => ?_, fun hpos hcrc hfree hwf => ?_⟩
  · exact exec_fcRxByte (fcRxByte_flag.trans (fcBoundary_of_short hshort)) (by decide)
  · exact exec_fcRxByte (fcRxByte_flag.trans (fcBoundary_of_mismatch hpos hcrc)) (by decide)
  · exact exec_fcRxByte (fcRxByte_flag.trans (fcBoundary_of_match_pending hpos hcrc hpending)) (by decide)
  · exact ⟨Memory.copy s.fc.buf (s.fc.pos - 2) s.fac.pend,
      exec_fcRxByte (fcRxByte_flag.trans (fcBoundary_of_match hpos hcrc hfree)) (by decide),
      fun k hk => by rw [Memory.read_copy _ _ hwf, if_pos hk],
      fun k hk => by rw [Memory.read_copy _ _ hwf, if_neg (Nat.not_lt.2 hk)]⟩

/-- Settles O29, by the discard flag, an escape, and the room in the buffer. -/
theorem otherOctetsAreUnescapedAndStored : Obligations.OtherOctetsAreUnescapedAndStored := by
  refine ⟨fun _ => decode_cmdWord rfl fun _ => rfl, ?_⟩
  rintro s b _ hflag rfl
  refine ⟨fun hdiscard => ?_, fun hdiscard hesc => ?_, fun hdiscard hesc hfull => ?_, fun hdiscard hesc hroom hwf => ?_⟩
  · exact exec_fcRxByte (fcRxByte_discarding hflag hdiscard) (by decide)
  · subst hesc
    exact exec_fcRxByte (fcRxByte_esc hdiscard) (by decide)
  · exact exec_fcRxByte ((fcRxByte_store hflag hesc hdiscard).trans (fcStore_of_full hfull)) (by decide)
  · have hstore := exec_fcRxByte (d := 0x10) ((fcRxByte_store hflag hesc hdiscard).trans (fcStore_of_room hroom))
      (by decide)
    rw [FcRegs.stored_eq] at hstore
    exact ⟨_, hstore, Memory.read_write_same hwf _ _, fun k hk => Memory.read_write_other _ _ hk⟩

/-- Settles O30, by what the shift register shows and by the eighth bit. -/
theorem receivedBitsFormOctets : Obligations.ReceivedBitsFormOctets := by
  refine ⟨fun _ => decode_cmdWord rfl fun _ => rfl, fun s bit sr acc hsr hacc => ?_⟩
  rw [← shiftInBit_eq] at hsr hacc
  subst hsr hacc
  refine ⟨fun hflag r hr => ?_, fun hflag hstuffed => ?_, fun hflag hdata hbits => ?_, fun hflag hdata hbits r hr => ?_⟩
  · subst hr
    exact exec_fcRxBit ((fcRxBit_eq bit s).trans (if_pos hflag)) (RxFlags.rdata_flagSeen _)
  · exact exec_fcRxBit ((fcRxBit_eq bit s).trans ((if_neg hflag).trans (if_pos hstuffed))) (by decide)
  · exact exec_fcRxBit ((fcRxBit_eq bit s).trans ((if_neg hflag).trans ((if_neg hdata).trans (if_neg (by omega)))))
      (by decide)
  · have hcollected := fcRxByte_setCollector (shiftInBit bit s.fc.acc) 8 (s.shiftIn bit) (shiftInBit bit s.fc.acc)
    rw [hr.trans hcollected]
    exact exec_fcRxBit ((fcRxBit_eq bit s).trans ((if_neg hflag).trans ((if_neg hdata).trans (if_pos (by omega)))))
      (RxFlags.rdata_byteDispatched _)

end Sys2Proof.Proofs
end

section
/-! CERTIFICATE. Operations that commute with a change of the state outside what they touch, and the receive parser as one:
FC.RX_BYTE and FC.RX_BIT do the same in every block with the same parser and pending message (45_frame_codec.md R217 to R222,
46_facade.md R263). -/

namespace Sys2Proof.Machine

/-! ### Operations that commute with a change of the state -/

/-- `op` does under `g` what it does without, and gives the same answer. -/
def Carries {α : Type} (g : State → State) (op : State → State × α) : Prop :=
  ∀ s, op (g s) = Prod.map g id (op s)

section
variable {α β : Type} {g : State → State} {op : State → State × α}

theorem Carries.answer (h : Carries g op) (f : α → β) : Carries g fun s => ((op s).1, f (op s).2) :=
  fun s => congrArg (fun r : State × α => (r.1, f r.2)) (h s)

/-- Such an operation after an update of the state. -/
theorem Carries.after (h : Carries g op) {u : State → State} (hu : ∀ s, u (g s) = g (u s)) :
    Carries g fun s => op (u s) := by
  intro s
  beta_reduce
  rw [hu, h]

/-- A choice by a test that `g` does not change. -/
theorem Carries.ite {p : State → Prop} [DecidablePred p] {op' : State → State × α} (hp : ∀ s, p (g s) ↔ p s)
    (h : Carries g op) (h' : Carries g op') : Carries g fun s => if p s then op s else op' s := by
  intro s
  rw [apply_ite (Prod.map g id)]
  exact if_congr (hp s) (h s) (h' s)

theorem Carries.mdAddSymbols (h : ∀ b, Carries g (mdAddSymbol b)) (bs : List Bool) :
    Carries g (mdAddSymbols bs) := by
  induction bs with
  | nil => exact fun _ => rfl
  | cons b bs ih =>
    intro s
    rw [mdAddSymbols_cons, mdAddSymbols_cons, h b s, Prod.map_fst, ih]
    rfl

end

/-! ### The receive parser in another block (45_frame_codec.md R217 to R222) -/

/-- The block `e` with what FC.RX_BIT reads and writes of `s`: the receive parser and the pending message, and the events of
`s` after its own. -/
def State.withParser (e s : State) : State :=
  { e with
    build := s.build
    fc := { s.fc with ones := e.fc.ones }
    fac := { e.fac with pendValid := s.fac.pendValid, pendLen := s.fac.pendLen, pend := s.fac.pend }
    trace := e.trace ++ s.trace }

section
variable (e s : State)

theorem State.withParser_event (x : Event) : (e.withParser s).event x = e.withParser (s.event x) := by
  simp [State.event, State.withParser]

theorem State.withParser_shiftIn (bit : Bool) : (e.withParser s).shiftIn bit = e.withParser (s.shiftIn bit) := rfl

theorem State.withParser_setCollector (acc : BitVec 8) (nbits : Nat) :
    (e.withParser s).setCollector acc nbits = e.withParser (s.setCollector acc nbits) := rfl

/-- A state with no event recorded. -/
def State.untraced (s : State) : State := { s with trace := [] }

/-- Every state is itself with its own parser and no events, whatever else stands around the parser. -/
theorem State.withParser_self : s.withParser s.untraced = s := by
  simp [State.withParser, State.untraced]

theorem consume_withParser (n : Nat) : Carries e.withParser (consume n) := by
  intro s
  unfold consume
  rw [State.withParser_event, apply_ite (Prod.map e.withParser id)]
  rfl

theorem fcBoundary_withParser : Carries e.withParser fcBoundary := by
  have hmatch : Carries e.withParser fun s =>
      ((consume (s.fc.pos - 2) (s.event .frameOk)).1.setFc (consume (s.fc.pos - 2) (s.event .frameOk)).1.fc.endFrame,
        ({ frameOk := true, msgDropped := (consume (s.fc.pos - 2) (s.event .frameOk)).2 } : RxFlags)) := by
    intro s
    beta_reduce
    rw [State.withParser_event, consume_withParser]
    rfl
  have hmismatch : Carries e.withParser fun s =>
      ((s.event .crcMismatch).setFc s.fc.endFrame, ({ crcMismatch := true } : RxFlags)) := by
    intro s
    beta_reduce
    rw [State.withParser_event]
    rfl
  exact Carries.ite (fun _ => Iff.rfl) (Carries.ite (fun _ => Iff.rfl) hmatch hmismatch) fun _ => rfl

theorem fcStore_withParser (b : BitVec 8) : Carries e.withParser (fcStore b) := by
  refine Carries.ite (fun _ => Iff.rfl) (fun s => ?_) fun _ => rfl
  exact congrArg (·, _) (State.withParser_event e
    (s.setFc { s.fc with pos := 0, rxCrc := 0xFFFF, inEsc := false, discard := true }) .oversize)

theorem fcRxByte_withParser (b : BitVec 8) : Carries e.withParser (fcRxByte b) := by
  have hescaped : Carries e.withParser fun s => fcStore (b ^^^ escMask) (s.setFc { s.fc with inEsc := false }) :=
    (fcStore_withParser e _).after fun _ => rfl
  exact Carries.ite (fun _ => Iff.rfl) (fcBoundary_withParser e) (Carries.ite (fun _ => Iff.rfl) (fun _ => rfl)
    (Carries.ite (fun _ => Iff.rfl) (fun _ => rfl) (Carries.ite (fun _ => Iff.rfl) hescaped (fcStore_withParser e b))))

/-- FC.RX_BIT reads and writes the parser and the pending message alone (45_frame_codec.md R221). -/
theorem fcRxBit_withParser (bit : Bool) : Carries e.withParser (fcRxBit bit) := by
  intro s
  simp only [fcRxBit_eq, State.withParser_shiftIn, fcRxByte_withParser e _ _, Prod.map_fst, Prod.map_snd,
    State.withParser_setCollector, apply_ite (Prod.map e.withParser id)]
  rfl

end

/-- An operation of the parser does the same under every `g` that keeps the parser. -/
theorem Carries.of_withParser {α : Type} {op : State → State × α} (h : ∀ e : State, Carries e.withParser op)
    {g : State → State} (hg : ∀ s t, g (s.withParser t) = (g s).withParser t) : Carries g op := by
  intro s
  have hs := h s s.untraced
  have hgs := h (g s) s.untraced
  rw [← hg, State.withParser_self] at hgs
  rw [State.withParser_self] at hs
  rw [hgs, hs]
  exact congrArg (·, _) (hg _ _).symm

end Sys2Proof.Machine
end

section
/-! CERTIFICATE. The receive path alone (46_facade.md R265). `e.withRx s` is the block `e` with the receive path of `s` put in, and
the events of `s` after its own; every command of the path commutes with `e.withRx` whatever `e` is, so what it answers, does to
its path and records depends on its path alone. -/

namespace Sys2Proof.Machine

/-! ### The receive path in another block -/

/-- The block `e` with the receive path of `s`, and the events of `s` after its own (46_facade.md R265). -/
def State.withRx (e s : State) : State :=
  { e with
    build := s.build
    rxq := s.rxq
    cr := s.cr
    dm := s.dm
    fc := { s.fc with ones := e.fc.ones }
    fac := { e.fac with pendValid := s.fac.pendValid, pendLen := s.fac.pendLen, pend := s.fac.pend }
    trace := e.trace ++ s.trace }

section
variable (e s : State)

theorem State.withRx_event (x : Event) : (e.withRx s).event x = e.withRx (s.event x) := by
  simp [State.event, State.withRx]

theorem State.withRx_eventIf (c : Bool) (x : Event) : (e.withRx s).eventIf c x = e.withRx (s.eventIf c x) := by
  simp [State.eventIf, State.withRx]

theorem State.withRx_withParser (t : State) : e.withRx (s.withParser t) = (e.withRx s).withParser t := by
  simp [State.withRx, State.withParser]

theorem crTransition_withRx (t : BitVec 32) : Carries e.withRx (crTransition t) := fun s =>
  congrArg (·, _) (State.withRx_eventIf e (s.setCr _) _ _)

theorem dmCount_withRx : dmCount (e.withRx s) = e.withRx (dmCount s) := by
  unfold dmCount
  dsimp only
  rw [apply_ite e.withRx]
  refine if_congr Iff.rfl ?_ rfl
  exact State.withRx_event e (crClear (s.setDm _)).1 .crWrap

theorem State.withRx_sampled (x : Int) : (e.withRx s).sampled x = e.withRx (s.sampled x) := by
  unfold State.sampled
  rw [dmCount_withRx]
  rfl

theorem State.withRx_flips (x : Int) : (e.withRx s).flips x = s.flips x := by
  unfold State.flips
  rw [dmCount_withRx]
  rfl

theorem dmOnTransition_withRx : Carries e.withRx dmOnTransition := by
  intro s
  have htracked := crTransition_withRx e (zext32 s.dm.cnt) s
  unfold dmOnTransition
  dsimp only
  rw [show (e.withRx s).dm = s.dm from rfl, htracked]
  simp only [apply_ite (Prod.map e.withRx id), Prod.map_fst, State.withRx_event]
  rfl

theorem dmProcess_withRx (x : Int) : Carries e.withRx (dmProcess x) := by
  intro s
  rw [dmProcess_eq, dmProcess_eq, State.withRx_flips, State.withRx_sampled, dmOnTransition_withRx,
    apply_ite (Prod.map e.withRx id)]
  rfl

theorem fcRxByte_withRx (b : BitVec 8) : Carries e.withRx (fcRxByte b) :=
  Carries.of_withParser (fun e => fcRxByte_withParser e b) (State.withRx_withParser e)

theorem fcRxBit_withRx (bit : Bool) : Carries e.withRx (fcRxBit bit) :=
  Carries.of_withParser (fun e => fcRxBit_withParser e bit) (State.withRx_withParser e)

theorem facDrain_withRx (k : Nat) (f : DecFlags) : Carries e.withRx (facDrain k · f) := by
  induction k generalizing f with
  | zero => exact fun _ => rfl
  | succ k ih =>
    intro s
    have hbit := fcRxBit_withRx e (itemBit s.rxq.head) (s.setRxq (s.rxq.pop s.build.rxqN))
    unfold facDrain
    rw [apply_ite (Prod.map e.withRx id)]
    refine if_congr Iff.rfl ?_ rfl
    exact (congrArg (fun q : State × RxFlags => facDrain k q.1 (f.add q.2)) hbit).trans (ih _ _)

theorem facDecodeProcessSample_withRx (x : Int) : Carries e.withRx (facDecodeProcessSample x) := by
  intro s
  have hdrained := facDrain_withRx e ((dmProcess x s).1.rxq.count (dmProcess x s).1.build.rxqN)
    { pushed := (dmProcess x s).2.pushed, sym := (dmProcess x s).2.sym, dropped := (dmProcess x s).2.dropped }
    (dmProcess x s).1
  unfold facDecodeProcessSample
  rw [dmProcess_withRx e x s]
  exact congrArg (fun q : State × DecFlags => (q.1, respond true (q.2.rdata q.1.fac.pendValid))) hdrained

theorem facRxmsgRead_withRx (i : BitVec 32) : Carries e.withRx (facRxmsgRead i) :=
  Carries.ite (fun _ => Iff.rfl) (fun _ => rfl) fun _ => rfl

end

/-! ### The commands of the receive path -/

section
variable {g : State → State} {i : QueueId} (hqueue : ∀ s, (g s).queue i = s.queue i)
  (hslots : ∀ s, (g s).slots i = s.slots i)
include hqueue hslots

theorem queueNthFromPut_carries (n : BitVec 32) : Carries g (queueNthFromPut i n) := by
  intro s
  unfold queueNthFromPut
  rw [hqueue, hslots, apply_ite (Prod.map g id)]
  rfl

theorem queueNthFromGet_carries (n : BitVec 32) : Carries g (queueNthFromGet i n) := by
  intro s
  unfold queueNthFromGet
  rw [hqueue, hslots, apply_ite (Prod.map g id)]
  rfl

end

/-- A command that goes on met its precondition (70_reset_and_hazards.md R335). -/
theorem queueReady_of_next {i : Instr} {s t : State} (h : exec i s = .next t) : queueReady i s = true := by
  cases i with
  | txqPut d => exact (queuePut_next h).1
  | txqGet => exact (queueGet_next h).1
  | rxqPut d => exact (queuePut_next h).1
  | rxqGet => exact (queueGet_next h).1
  | _ => rfl

/-- A command that goes on leaves the build (00_scope.md R8). -/
theorem build_of_next {i : Instr} {s t : State} (h : exec i s = .next t) : t.build = s.build := by
  obtain ⟨u, r, hexec, hports, -⟩ := exec_ends (queueReady_of_next h)
  cases hexec.symm.trans h
  exact congrArg PortView.build hports

/-- Each command of the receive path is an operation that commutes with a change of all but that path. -/
theorem exec_of_isReceive {i : Instr} (hi : isReceive i = true) :
    ∃ op : State → State × Resp, (∀ e : State, Carries e.withRx op) ∧
      ∀ s, queueReady i s = true → exec i s = finish (op s) := by
  cases i with
  | facDecodeProcessSample x =>
    exact ⟨fun s => facDecodeProcessSample (operandSample s.build x) s,
      fun e s => facDecodeProcessSample_withRx e (operandSample s.build x) s, fun _ _ => rfl⟩
  | facDecodeGetMessage => exact ⟨_, fun _ _ => rfl, fun _ _ => rfl⟩
  | facDecodeClearMessage => exact ⟨_, fun _ _ => rfl, fun _ _ => rfl⟩
  | facRxmsgRead i => exact ⟨_, fun e => facRxmsgRead_withRx e i, fun _ _ => rfl⟩
  | dmClear => exact ⟨dmClear, fun _ _ => rfl, fun _ _ => rfl⟩
  | dmProcessSample x =>
    exact ⟨fun s => ((dmProcess (operandSample s.build x) s).1,
        respond true (dmProcess (operandSample s.build x) s).2.rdata),
      fun e s => (dmProcess_withRx e (operandSample s.build x)).answer (fun f => respond true f.rdata) s, fun _ _ => rfl⟩
  | crClear => exact ⟨crClear, fun _ _ => rfl, fun _ _ => rfl⟩
  | crTransition t =>
    exact ⟨_, fun e => (crTransition_withRx e t).answer fun r => respond true r.rdata, fun _ _ => rfl⟩
  | fcRxByte b => exact ⟨_, fun e => (fcRxByte_withRx e b).answer fun f => respond true f.rdata, fun _ _ => rfl⟩
  | fcRxBit bit => exact ⟨_, fun e => (fcRxBit_withRx e bit).answer fun f => respond true f.rdata, fun _ _ => rfl⟩
  | rxqCanPut => exact ⟨queueCanPut .rx, fun _ _ => rfl, fun _ _ => rfl⟩
  | rxqPut d =>
    exact ⟨fun s => (s.setRxq (s.rxq.push s.build.rxqN (operandItem s.build d)), respond true 0), fun _ _ => rfl,
      fun _ hroom => if_pos hroom⟩
  | rxqCanGet => exact ⟨queueCanGet .rx, fun _ _ => rfl, fun _ _ => rfl⟩
  | rxqGet =>
    exact ⟨fun s => (s.setRxq (s.rxq.pop s.build.rxqN), respond true (zext32 s.rxq.head)), fun _ _ => rfl,
      fun _ hitem => if_pos hitem⟩
  | rxqClear => exact ⟨queueClear .rx, fun _ _ => rfl, fun _ _ => rfl⟩
  | rxqCount => exact ⟨queueCount .rx, fun _ _ => rfl, fun _ _ => rfl⟩
  | rxqNthFromPut n =>
    exact ⟨_, fun e => queueNthFromPut_carries (g := e.withRx) (i := .rx) (fun _ => rfl) (fun _ => rfl) n,
      fun _ _ => rfl⟩
  | rxqNthFromGet n =>
    exact ⟨_, fun e => queueNthFromGet_carries (g := e.withRx) (i := .rx) (fun _ => rfl) (fun _ => rfl) n,
      fun _ _ => rfl⟩
  | _ => cases hi

/-- A state with the receive path of `s` is itself with that path put in. -/
theorem State.withRx_of_rxView {s s' : State} (h : s'.rxView = s.rxView) : s'.withRx s.untraced = s' := by
  have hparts : s'.withRx s.untraced =
      { s' with
        build := s.rxView.build
        rxq := s.rxView.rxq
        cr := s.rxView.cr
        dm := s.rxView.dm
        fc := { s.rxView.fc with ones := s'.fc.ones }
        fac := { s'.fac with pendValid := s.rxView.pendValid, pendLen := s.rxView.pendLen, pend := s.rxView.pend }
        trace := s'.trace ++ [] } := rfl
  rw [hparts, ← h, List.append_nil]
  rfl

theorem queueReady_of_rxView {i : Instr} (hi : isReceive i = true) {s s' : State} (h : s'.rxView = s.rxView) :
    queueReady i s' = queueReady i s := by
  rw [← State.withRx_of_rxView h]
  cases i with
  | txqPut _ | txqGet => cases hi
  | _ => rfl

/-- What a receive command makes of the receive path, the events it adds and its response are the same in every state with
that path, and nothing else of the state changes. -/
theorem exec_receive {i : Instr} (hi : isReceive i = true) {s t : State} (h : exec i s = .next t) :
    ∃ (u : State) (r : Resp), u.build = s.build ∧
      ∀ s' : State, s'.rxView = s.rxView → exec i s' = .next ((s'.withRx u).reply r) := by
  obtain ⟨op, hop, hexec⟩ := exec_of_isReceive hi
  have hall (s' : State) (hview : s'.rxView = s.rxView) :
      exec i s' = .next ((s'.withRx (op s.untraced).1).reply (op s.untraced).2) := by
    have hready := (queueReady_of_rxView hi hview).trans (queueReady_of_next h)
    have hcarried := hop s' s.untraced
    rw [State.withRx_of_rxView hview] at hcarried
    rw [hexec s' hready, hcarried]
    rfl
  exact ⟨(op s.untraced).1, (op s.untraced).2, (build_of_next (hall s rfl) :), hall⟩

end Sys2Proof.Machine
end

section
/-! CERTIFICATE. The transmit path alone (46_facade.md R265): its commands commute with `e.withTx` as those of the receive path do
with `e.withRx`. They read CFG and the CRC byte order and write CFG5, CFG6 and `FAC.cfgErr` beside their path. -/

namespace Sys2Proof.Machine

/-! ### The transmit path in another block -/

/-- The block `e` with the transmit path, CFG and the CRC byte order of `s`, and the events of `s` after its own
(46_facade.md R265). -/
def State.withTx (e s : State) : State :=
  { e with
    build := s.build
    cfg := s.cfg
    txq := s.txq
    md := s.md
    fc := { e.fc with crcBE := s.fc.crcBE, ones := s.fc.ones }
    fac := { e.fac with txbuf := s.fac.txbuf, txLen := s.fac.txLen }
    byteOut := s.byteOut
    trace := e.trace ++ s.trace }

section
variable (e s : State)

theorem State.withTx_event (x : Event) : (e.withTx s).event x = e.withTx (s.event x) := by
  simp [State.event, State.withTx]

theorem mdAddSymbol_withTx (b : Bool) : Carries e.withTx (mdAddSymbol b) := by
  refine Carries.ite (fun _ => Iff.rfl) (fun _ => rfl) fun s => ?_
  exact congrArg (·, _) (State.withTx_event e (s.setMd { s.md with txOverflow := true }) .txOverflow)

theorem mdAddSymbols_withTx (bs : List Bool) : Carries e.withTx (mdAddSymbols bs) :=
  Carries.mdAddSymbols (mdAddSymbol_withTx e) bs

theorem mdAddRun_withTx (bs : List Bool) : Carries e.withTx (mdAddRun bs) :=
  (mdAddSymbols_withTx e bs).answer fun k => respond (decide (k = bs.length)) (zext32 k)

theorem mdAddPreamble_withTx : Carries e.withTx mdAddPreamble := fun s =>
  mdAddRun_withTx e (preambleSymbols s.cfg.preamble) s

theorem mdAddPostamble_withTx : Carries e.withTx mdAddPostamble := fun s =>
  mdAddRun_withTx e (postambleSymbols s.cfg.postamble) s

theorem mdGetSample_withTx : Carries e.withTx mdGetSample :=
  Carries.ite (fun _ => Iff.rfl) (fun _ => rfl) (Carries.ite (fun _ => Iff.rfl) (fun _ => rfl) fun _ => rfl)

theorem fcSendFrameBits_withTx : Carries e.withTx fcSendFrameBits := fun s =>
  ((mdAddSymbols_withTx e (frameBits s.build.crcPoly s.fc.crcBE s.txPayload)).answer fun k =>
    respond (decide (k = (frameBits s.build.crcPoly s.fc.crcBE s.txPayload).length))
      (zext32 (frameBits s.build.crcPoly s.fc.crcBE s.txPayload).length)) (s.setFc { s.fc with ones := 0 })

theorem facEncodeMessage_withTx : Carries e.withTx facEncodeMessage := by
  intro s
  have hcleared : (mdClear (e.withTx s)).1 = e.withTx (mdClear s).1 := rfl
  dsimp only [facEncodeMessage]
  rw [hcleared, mdAddPreamble_withTx e, Prod.map_fst, fcSendFrameBits_withTx e, Prod.map_fst, mdAddPostamble_withTx e,
    Prod.map_fst]
  generalize (mdAddPostamble (fcSendFrameBits (mdAddPreamble (mdClear s).1).1).1).1 = t
  rfl

theorem facTxbufPush_withTx (b : BitVec 8) : Carries e.withTx (facTxbufPush b) :=
  Carries.ite (fun _ => Iff.rfl) (fun _ => rfl) fun _ => rfl

/-- MD.SETUP alone of the transmit path writes `FAC.cfgErr`, and it does not read it (43_modulator.md R172). -/
theorem mdSetup_withTx : mdSetup (e.withTx s) = Prod.map (e.setCfgErr !s.cfg.valid).withTx id (mdSetup s) := by
  by_cases hvalid : s.cfg.valid = true
  · rw [mdSetup_valid hvalid, mdSetup_valid (s := e.withTx s) hvalid, hvalid]
    rfl
  · rw [mdSetup_invalid hvalid, mdSetup_invalid (s := e.withTx s) hvalid, Bool.eq_false_iff.2 hvalid]
    rfl

end

/-! ### The commands of the transmit path -/

section
variable (bs : List Bool) (s : State)

theorem mdAddSymbols_fc : (mdAddSymbols bs s).1.fc = s.fc := by rw [mdAddSymbols_frame]

theorem mdAddSymbols_cfg : (mdAddSymbols bs s).1.cfg = s.cfg := by rw [mdAddSymbols_frame]

end

/-- `t` has the CRC byte order and the configuration registers of `s`, the two lengths CFG5 and CFG6 aside. -/
structure KeepsShared (s t : State) : Prop where
  crcBE : t.fc.crcBE = s.fc.crcBE
  cfg : t.cfg = { s.cfg with preambleLen := t.cfg.preambleLen, postambleLen := t.cfg.postambleLen }

theorem KeepsShared.of_eq {s t : State} (hcrc : t.fc.crcBE = s.fc.crcBE) (hcfg : t.cfg = s.cfg) : KeepsShared s t :=
  ⟨hcrc, by rw [hcfg]⟩

theorem KeepsShared.trans {s t u : State} (h : KeepsShared s t) (h' : KeepsShared t u) : KeepsShared s u where
  crcBE := h'.crcBE.trans h.crcBE
  cfg := by rw [h'.cfg, h.cfg]

theorem keepsShared_mdAddSymbols (bs : List Bool) (s : State) : KeepsShared s (mdAddSymbols bs s).1 :=
  .of_eq (congrArg FcRegs.crcBE (mdAddSymbols_fc bs s)) (mdAddSymbols_cfg bs s)

theorem keepsShared_fcSendFrameBits (s : State) : KeepsShared s (fcSendFrameBits s).1 :=
  KeepsShared.trans (t := s.setFc { s.fc with ones := 0 }) ⟨rfl, rfl⟩ (keepsShared_mdAddSymbols _ _)

theorem keepsShared_mdAddPreamble (s : State) : KeepsShared s (mdAddPreamble s).1 := keepsShared_mdAddSymbols _ s

theorem keepsShared_mdAddPostamble (s : State) : KeepsShared s (mdAddPostamble s).1 := keepsShared_mdAddSymbols _ s

theorem keepsShared_facEncodeMessage (s : State) : KeepsShared s (facEncodeMessage s).1 := by
  dsimp only [facEncodeMessage]
  have hcleared : KeepsShared s (mdClear s).1 := ⟨rfl, rfl⟩
  have hframe := (hcleared.trans (keepsShared_mdAddPreamble _)).trans (keepsShared_fcSendFrameBits _)
  exact hframe.trans (keepsShared_mdAddPostamble _)

theorem keepsShared_mdSetup (s : State) : KeepsShared s (mdSetup s).1 := by
  unfold mdSetup
  split <;> exact ⟨rfl, rfl⟩

theorem keepsShared_mdGetSample (s : State) : KeepsShared s (mdGetSample s).1 := by
  rw [mdGetSample_frame]
  exact ⟨rfl, rfl⟩

theorem keepsShared_facTxbufPush (b : BitVec 8) (s : State) : KeepsShared s (facTxbufPush b s).1 := by
  unfold facTxbufPush
  split <;> exact ⟨rfl, rfl⟩

/-- An operation of the transmit path: it commutes with a change of all but that path and what the paths share, `FAC.cfgErr`
aside, and of what they share it writes CFG5 and CFG6 alone. -/
structure TransmitOp (op : State → State × Resp) : Prop where
  carries : ∀ e s : State, ∃ c, op (e.withTx s) = Prod.map (e.setCfgErr c).withTx id (op s)
  keeps : ∀ s, KeepsShared s (op s).1

theorem TransmitOp.of_carries {op : State → State × Resp} (h : ∀ e : State, Carries e.withTx op)
    (hkeeps : ∀ s, KeepsShared s (op s).1) : TransmitOp op where
  carries e s := ⟨e.fac.cfgErr, h e s⟩
  keeps := hkeeps

/-- An operation that only looks. -/
theorem TransmitOp.of_observes {op : State → State × Resp} (h : ∀ e : State, Carries e.withTx op) (hop : Observes op) :
    TransmitOp op :=
  .of_carries h fun s => by rw [hop.keeps]; exact ⟨rfl, rfl⟩

/-- Each command of the transmit path is such an operation. -/
theorem exec_of_isTransmit {i : Instr} (hi : isTransmit i = true) :
    ∃ op : State → State × Resp, TransmitOp op ∧ ∀ s, queueReady i s = true → exec i s = finish (op s) := by
  cases i with
  | facEncodeMessage =>
    exact ⟨_, .of_carries facEncodeMessage_withTx keepsShared_facEncodeMessage, fun _ _ => rfl⟩
  | facEncodeGetSample => exact ⟨_, .of_carries mdGetSample_withTx keepsShared_mdGetSample, fun _ _ => rfl⟩
  | facTxbufClear =>
    exact ⟨fun s => (s.setFac { s.fac with txLen := 0 }, respond true 0),
      .of_carries (fun _ _ => rfl) fun _ => ⟨rfl, rfl⟩, fun _ _ => rfl⟩
  | facTxbufPush b =>
    exact ⟨_, .of_carries (facTxbufPush_withTx · b) (keepsShared_facTxbufPush b), fun _ _ => rfl⟩
  | mdSetup => exact ⟨mdSetup, ⟨fun e s => ⟨_, mdSetup_withTx e s⟩, keepsShared_mdSetup⟩, fun _ _ => rfl⟩
  | mdClear => exact ⟨mdClear, .of_carries (fun _ _ => rfl) fun _ => ⟨rfl, rfl⟩, fun _ _ => rfl⟩
  | mdSetPreamble n =>
    exact ⟨mdSetPreamble n, .of_carries (fun _ _ => rfl) fun _ => ⟨rfl, rfl⟩, fun _ _ => rfl⟩
  | mdSetPostamble n =>
    exact ⟨mdSetPostamble n, .of_carries (fun _ _ => rfl) fun _ => ⟨rfl, rfl⟩, fun _ _ => rfl⟩
  | mdAddPreamble =>
    exact ⟨_, .of_carries mdAddPreamble_withTx keepsShared_mdAddPreamble, fun _ _ => rfl⟩
  | mdAddPostamble =>
    exact ⟨_, .of_carries mdAddPostamble_withTx keepsShared_mdAddPostamble, fun _ _ => rfl⟩
  | mdAddSymbol b =>
    refine ⟨_, .of_carries (mdAddSymbol_withTx · b) fun s => ?_, fun _ _ => rfl⟩
    unfold mdAddSymbol
    split <;> exact ⟨rfl, rfl⟩
  | mdGetSample => exact ⟨_, .of_carries mdGetSample_withTx keepsShared_mdGetSample, fun _ _ => rfl⟩
  | fcSendFrameBytes =>
    exact ⟨fcSendFrameBytes, .of_carries (fun _ _ => rfl) fun _ => ⟨rfl, rfl⟩, fun _ _ => rfl⟩
  | fcSendFrameBits =>
    exact ⟨_, .of_carries fcSendFrameBits_withTx keepsShared_fcSendFrameBits, fun _ _ => rfl⟩
  | txqCanPut => exact ⟨_, .of_observes (fun _ _ => rfl) (observes_queueCanPut .tx), fun _ _ => rfl⟩
  | txqPut d =>
    exact ⟨fun s => (s.setTxq (s.txq.push s.build.txqN (operandItem s.build d)), respond true 0),
      .of_carries (fun _ _ => rfl) fun _ => ⟨rfl, rfl⟩, fun _ hroom => if_pos hroom⟩
  | txqCanGet => exact ⟨_, .of_observes (fun _ _ => rfl) (observes_queueCanGet .tx), fun _ _ => rfl⟩
  | txqGet =>
    exact ⟨fun s => (s.setTxq (s.txq.pop s.build.txqN), respond true (zext32 s.txq.head)),
      .of_carries (fun _ _ => rfl) fun _ => ⟨rfl, rfl⟩, fun _ hitem => if_pos hitem⟩
  | txqClear => exact ⟨queueClear .tx, .of_carries (fun _ _ => rfl) fun _ => ⟨rfl, rfl⟩, fun _ _ => rfl⟩
  | txqCount => exact ⟨_, .of_observes (fun _ _ => rfl) (observes_queueCount .tx), fun _ _ => rfl⟩
  | txqNthFromPut n =>
    exact ⟨_, .of_observes (fun e => queueNthFromPut_carries (g := e.withTx) (i := .tx) (fun _ => rfl) (fun _ => rfl) n)
      (observes_queueNthFromPut .tx n), fun _ _ => rfl⟩
  | txqNthFromGet n =>
    exact ⟨_, .of_observes (fun e => queueNthFromGet_carries (g := e.withTx) (i := .tx) (fun _ => rfl) (fun _ => rfl) n)
      (observes_queueNthFromGet .tx n), fun _ _ => rfl⟩
  | _ => cases hi

/-- Two states agree on the transmit path, CFG and the CRC byte order. -/
structure SameTx (s s' : State) : Prop where
  view : s'.txView = s.txView
  cfg : s'.cfg = s.cfg
  crcBE : s'.fc.crcBE = s.fc.crcBE

/-- A state with the transmit path of `s` is itself with that path put in. -/
theorem State.withTx_of_sameTx {s s' : State} (h : SameTx s s') : s'.withTx s.untraced = s' := by
  have hparts : s'.withTx s.untraced =
      { s' with
        build := s.txView.build
        cfg := s.cfg
        txq := s.txView.txq
        md := s.txView.md
        fc := { s'.fc with crcBE := s.fc.crcBE, ones := s.txView.ones }
        fac := { s'.fac with txbuf := s.txView.txbuf, txLen := s.txView.txLen }
        byteOut := s.txView.byteOut
        trace := s'.trace ++ [] } := rfl
  rw [hparts, ← h.view, ← h.cfg, ← h.crcBE, List.append_nil]
  rfl

theorem queueReady_of_sameTx {i : Instr} (hi : isTransmit i = true) {s s' : State} (h : SameTx s s') :
    queueReady i s' = queueReady i s := by
  rw [← State.withTx_of_sameTx h]
  cases i with
  | rxqPut _ | rxqGet => cases hi
  | _ => rfl

/-- What a transmit command makes of the transmit path and of CFG, the events it adds and its response are the same in every
state with that path, CFG and CRC byte order, and nothing else of the state changes but `FAC.cfgErr`. -/
theorem exec_transmit {i : Instr} (hi : isTransmit i = true) {s t : State} (h : exec i s = .next t) :
    ∃ (u : State) (r : Resp), u.build = s.build ∧ KeepsShared s u ∧
      ∀ s' : State, SameTx s s' → ∃ c, exec i s' = .next (((s'.setCfgErr c).withTx u).reply r) := by
  obtain ⟨op, hop, hexec⟩ := exec_of_isTransmit hi
  have hall (s' : State) (hsame : SameTx s s') :
      ∃ c, exec i s' = .next (((s'.setCfgErr c).withTx (op s.untraced).1).reply (op s.untraced).2) := by
    have hready := (queueReady_of_sameTx hi hsame).trans (queueReady_of_next h)
    obtain ⟨c, hcarried⟩ := hop.carries s' s.untraced
    rw [State.withTx_of_sameTx hsame] at hcarried
    refine ⟨c, ?_⟩
    rw [hexec s' hready, hcarried]
    rfl
  obtain ⟨c, hself⟩ := hall s ⟨rfl, rfl, rfl⟩
  exact ⟨(op s.untraced).1, (op s.untraced).2, (build_of_next hself :),
    ⟨(hop.keeps s.untraced).crcBE, (hop.keeps s.untraced).cfg⟩, hall⟩

end Sys2Proof.Machine

namespace Sys2Proof.Proofs

open Sys2Proof.Machine

/-- Settles O59, from the operations that the commands of a path run: each commutes with a change of everything outside the
path. -/
theorem transmitAndReceivePathsAreIsolated : Obligations.TransmitAndReceivePathsAreIsolated := by
  refine ⟨fun i s t hexec hi => ?_, fun i s t hexec hi => ?_, fun i s s' hi hview => ?_,
    fun i s s' hi hview hcfg hcrc => ?_⟩
  · obtain ⟨u, r, hbuild, hkeeps, hall⟩ := exec_transmit hi hexec
    obtain ⟨c, hself⟩ := hall s ⟨rfl, rfl, rfl⟩
    cases hexec.symm.trans hself
    exact ⟨congrArg₂ (fun b crc => { s.rxView with build := b, fc := { s.rxView.fc with crcBE := crc } }) hbuild
      hkeeps.crcBE, hkeeps.cfg⟩
  · obtain ⟨u, r, hbuild, hall⟩ := exec_receive hi hexec
    cases hexec.symm.trans (hall s rfl)
    exact ⟨congrArg (fun b => { s.txView with build := b }) hbuild, rfl⟩
  · refine ⟨queueReady_of_rxView hi hview, fun t hexec => ?_⟩
    obtain ⟨u, r, -, hall⟩ := exec_receive hi hexec
    cases hexec.symm.trans (hall s rfl)
    exact ⟨_, r.word, u.trace, hall s' hview, rfl, rfl, rfl, State.reply_responses _ _, State.reply_responses _ _⟩
  · refine ⟨queueReady_of_sameTx hi ⟨hview, hcfg, hcrc⟩, fun t hexec => ?_⟩
    obtain ⟨u, r, -, -, hall⟩ := exec_transmit hi hexec
    obtain ⟨c, hself⟩ := hall s ⟨rfl, rfl, rfl⟩
    obtain ⟨c', hother⟩ := hall s' ⟨hview, hcfg, hcrc⟩
    cases hexec.symm.trans hself
    exact ⟨_, r.word, u.trace, hother, rfl, rfl, rfl, rfl, State.reply_responses _ _, State.reply_responses _ _⟩

end Sys2Proof.Proofs
end

section
/-! CERTIFICATE. The facade's commands one by one (46_facade.md R252 to R260): FAC.SETUP, the message buffers, a whole message
queued for transmission, and a sample whose symbols are drained through the frame codec. -/

namespace Sys2Proof.Machine

/-! ### FAC.SETUP (46_facade.md R252) -/

/-- The receive units and the message buffers, after the modulator. -/
theorem facSetup_receive {u : State} (h : u.cfg.valid = true) :
    (fcSetup (dmSetup u).1).1.setFac (fcSetup (dmSetup u).1).1.fac.cleared =
      { u with
        dm := { u.dm with man := u.cfg.manchester }.cleared u.build.majW
        cr := (u.cr.configure u.cfg).cleared
        rxq := u.rxq.cleared
        fc := { u.fc with crcBE := u.cfg.crcBigEndian }.cleared
        fac := u.fac.cleared } := by
  rw [dmSetup_loads h]
  rfl

/-- With a valid configuration every unit is loaded from CFG and cleared, and the message buffers are emptied. -/
theorem facSetup_loads {s : State} (h : s.cfg.valid = true) :
    facSetup s = ({ s with
      md := (s.md.configure s.cfg).cleared
      txq := s.txq.cleared
      dm := { s.dm with man := s.cfg.manchester }.cleared s.build.majW
      cr := (s.cr.configure s.cfg).cleared
      rxq := s.rxq.cleared
      fc := { s.fc with crcBE := s.cfg.crcBigEndian }.cleared
      fac := s.fac.cleared }, respond true 0) := by
  have hmd : (mdSetup s).1.cfg.valid = true := by rw [mdSetup_valid h]; exact h
  rw [facSetup_valid h, facSetup_receive hmd, mdSetup_valid h]
  rfl

/-! ### The message buffers (46_facade.md R256, R259, R260) -/

section
variable {s : State} {k : BitVec 32}

theorem facRxmsgRead_inside (hpend : s.fac.pendValid = true) (hk : k.toNat < s.fac.pendLen) :
    facRxmsgRead k s = (s, respond true ((Memory.read s.fac.pend k.toNat).setWidth 32)) :=
  if_pos ⟨hpend, hk⟩

theorem facRxmsgRead_outside (h : s.fac.pendValid = false ∨ s.fac.pendLen ≤ k.toNat) :
    facRxmsgRead k s = (s, respond false 0) := by
  refine if_neg fun ⟨hpend, hk⟩ => ?_
  rcases h with hnone | hle
  · exact Bool.eq_false_iff.1 hnone hpend
  · omega

theorem facTxbufPush_full (b : BitVec 8) (h : s.fac.txLen = s.build.txbufLen) :
    facTxbufPush b s = (s, respond false 0) :=
  if_pos h

theorem facTxbufPush_room (b : BitVec 8) (h : s.fac.txLen ≠ s.build.txbufLen) :
    facTxbufPush b s =
      (s.setFac { s.fac with txbuf := Memory.write s.fac.txbuf s.fac.txLen b, txLen := s.fac.txLen + 1 },
        respond true 0) :=
  if_neg h

end

/-! ### A message as one run of symbols (46_facade.md R253) -/

/-- The symbols of a transmission: the preamble, the frame of the staged payload, the postamble (46_facade.md R253). -/
def State.messageSymbols (s : State) : List Bool :=
  preambleSymbols s.cfg.preamble ++ frameBits s.build.crcPoly s.fc.crcBE s.txPayload ++ postambleSymbols s.cfg.postamble

/-- Two runs of symbols one after the other. -/
theorem mdAddSymbols_append (as bs : List Bool) (s : State) :
    (mdAddSymbols (as ++ bs) s).1 = (mdAddSymbols bs (mdAddSymbols as s).1).1 := by
  induction as generalizing s with
  | nil => rfl
  | cons a as ih => exact ih (mdAddSymbol a s).1

/-- Queueing symbols does not touch the frame codec. -/
theorem mdAddSymbols_setFc (f : FcRegs) (bs : List Bool) : Carries (State.setFc · f) (mdAddSymbols bs) :=
  Carries.mdAddSymbols (g := (State.setFc · f)) (fun _ => Carries.ite (fun _ => Iff.rfl) (fun _ => rfl) fun _ => rfl) bs

/-- The frame sent by a state `t` that has the build, the codec and the staged payload of `s`. -/
theorem fcSendFrameBits_run {s t : State} (hbuild : t.build = s.build) (hfc : t.fc = s.fc) (hfac : t.fac = s.fac) :
    (fcSendFrameBits t).1 =
      (mdAddSymbols (frameBits s.build.crcPoly s.fc.crcBE s.txPayload) (t.setFc { s.fc with ones := 0 })).1 := by
  rw [fcSendFrameBits, State.txPayload, State.txPayload, hbuild, hfc, hfac]

theorem mdAddPostamble_run {s t : State} (hcfg : t.cfg = s.cfg) :
    (mdAddPostamble t).1 = (mdAddSymbols (postambleSymbols s.cfg.postamble) t).1 := by
  rw [mdAddPostamble, hcfg]
  rfl

theorem fcSendFrameBits_cfg (s : State) : (fcSendFrameBits s).1.cfg = s.cfg :=
  mdAddSymbols_cfg _ (s.setFc { s.fc with ones := 0 })

/-- FAC.ENCODE_MESSAGE queues its symbols in one run, from the cleared generator. -/
theorem facEncodeMessage_run (s : State) :
    (facEncodeMessage s).1 = (mdAddSymbols s.messageSymbols ((mdClear s).1.setFc { s.fc with ones := 0 })).1 := by
  have hpreamble := mdAddSymbols_frame (preambleSymbols s.cfg.preamble) (mdClear s).1
  have hsend : (fcSendFrameBits (mdAddSymbols (preambleSymbols s.cfg.preamble) (mdClear s).1).1).1 =
      (mdAddSymbols (frameBits s.build.crcPoly s.fc.crcBE s.txPayload)
        ((mdAddSymbols (preambleSymbols s.cfg.preamble) (mdClear s).1).1.setFc { s.fc with ones := 0 })).1 :=
    fcSendFrameBits_run (by rw [hpreamble]; rfl) (by rw [hpreamble]; rfl) (by rw [hpreamble]; rfl)
  have hones := mdAddSymbols_setFc { s.fc with ones := 0 } (preambleSymbols s.cfg.preamble) (mdClear s).1
  rw [State.messageSymbols, mdAddSymbols_append, mdAddSymbols_append, hones, Prod.map_fst, ← hsend]
  dsimp only [facEncodeMessage]
  exact mdAddPostamble_run ((fcSendFrameBits_cfg _).trans (mdAddSymbols_cfg _ (mdClear s).1))

/-- What FAC.ENCODE_MESSAGE answers: the symbols in TXQ, unless one did not fit. -/
theorem facEncodeMessage_answer (s : State) :
    facEncodeMessage s = ((facEncodeMessage s).1, respond (!(facEncodeMessage s).1.md.txOverflow)
      (zext32 ((facEncodeMessage s).1.txq.count (facEncodeMessage s).1.build.txqN))) := by
  rw [facEncodeMessage]

/-- FAC.ENCODE_MESSAGE by what TXQ takes (46_facade.md R253). -/
theorem facEncodeMessage_queued {s : State} {room : Nat} (hq : QueueInv s.build.txqN s.txq)
    (hroom : room = s.build.txqN - 1) {syms : List Bool} (hsyms : syms = s.messageSymbols) :
    ∃ q, facEncodeMessage s =
        (((s.setMd s.md.cleared).setFc { s.fc with ones := 0 }).queued q (syms.length - room),
          respond (decide (syms.length ≤ room)) (zext32 syms.length)) ∧
      QueueInv s.build.txqN q ∧ q.items s.build.txqN = (syms.take room).map (symbolItem s.build) := by
  have hempty : s.txq.cleared.count s.build.txqN = 0 := by
    rw [← QueueRegs.length_items, QueueRegs.items_cleared, List.length_nil]
  obtain ⟨q, hrun, hinv, hitems⟩ := mdAddSymbols_queued syms (room := room)
    (s := (mdClear s).1.setFc { s.fc with ones := 0 }) hq.cleared
    (show room = s.build.txqN - 1 - s.txq.cleared.count s.build.txqN by omega)
  have hblock := facEncodeMessage_run s
  rw [← hsyms, hrun] at hblock
  have hqueued : q.items s.build.txqN = (syms.take room).map (symbolItem s.build) :=
    hitems.trans (congrArg (· ++ _) (QueueRegs.items_cleared _ _))
  have hcount : q.count s.build.txqN = min syms.length room := by
    rw [← QueueRegs.length_items, hqueued, List.length_map, List.length_take, Nat.min_comm]
  have hfit : (!(false || decide (0 < syms.length - room))) = decide (min syms.length room = syms.length) := by
    rw [Bool.false_or, ← decide_not, decide_eq_decide]
    omega
  refine ⟨q, ?_, hinv, hqueued⟩
  rw [facEncodeMessage_answer, hblock, ← respond_min, ← hfit, ← hcount]
  rfl

/-! ### The symbols of RXQ through the codec (46_facade.md R255) -/

theorem fcRxBit_setRxq (q : QueueRegs) (bit : Bool) : Carries (State.setRxq · q) (fcRxBit bit) :=
  Carries.of_withParser (fun e => fcRxBit_withParser e bit) fun _ _ => rfl

section
variable (s : State)

theorem fcRxBit_build (bit : Bool) : (fcRxBit bit s).1.build = s.build := by rw [fcRxBit_frame]

theorem fcRxBit_rxq (bit : Bool) : (fcRxBit bit s).1.rxq = s.rxq := by rw [fcRxBit_frame]

/-- Bits fed to FC.RX_BIT leave RXQ (45_frame_codec.md R221). -/
theorem feedBits_rxq (bs : List Bool) : (feedBits bs s).1.rxq = s.rxq := by
  induction bs generalizing s with
  | nil => rfl
  | cons b bs ih => exact (ih (fcRxBit b s).1).trans (fcRxBit_rxq s b)

end

/-- A queue with `get` moved to `put` holds nothing (40_queue.md R100). -/
theorem QueueRegs.items_get_put (n : Nat) (q : QueueRegs) : QueueRegs.items n { q with get := q.put } = [] := by
  simp [QueueRegs.items, QueueRegs.count, imod]

/-- Draining RXQ feeds its items in order to FC.RX_BIT and leaves it empty, `get` at `put`. -/
theorem facDrain_eq_feedBits {n k : Nat} {s : State} (f : DecFlags) (hn : s.build.rxqN = n) (hq : QueueInv n s.rxq)
    (hk : s.rxq.count n = k) :
    facDrain k s f =
      Prod.map id (List.foldl DecFlags.add f)
        (feedBits ((s.rxq.items n).map itemBit) (s.setRxq { s.rxq with get := s.rxq.put })) := by
  induction k generalizing s f with
  | zero =>
    have hnone : s.rxq.put = s.rxq.get := by
      by_contra hne
      exact (QueueRegs.canGet_iff_count hq).1 ((QueueRegs.canGet_iff _).2 hne) hk
    have hitems : s.rxq.items n = [] := List.eq_nil_of_length_eq_zero ((QueueRegs.length_items n s.rxq).trans hk)
    rw [hitems, hnone]
    rfl
  | succ k ih =>
    have hitem : s.rxq.canGet = true := (QueueRegs.canGet_iff_count hq).2 (by omega)
    have hcount := QueueRegs.count_pop hq hitem
    have hfed : fcRxBit (itemBit s.rxq.head) (s.setRxq { s.rxq with get := s.rxq.put }) =
        Prod.map (State.setRxq · { s.rxq with get := s.rxq.put }) id
          (fcRxBit (itemBit s.rxq.head) (s.setRxq (s.rxq.pop n))) :=
      fcRxBit_setRxq { s.rxq with get := s.rxq.put } (itemBit s.rxq.head) (s.setRxq (s.rxq.pop n))
    have hrxq := fcRxBit_rxq (s.setRxq (s.rxq.pop n)) (itemBit s.rxq.head)
    have hbuild := fcRxBit_build (s.setRxq (s.rxq.pop n)) (itemBit s.rxq.head)
    have hrest := ih (s := (fcRxBit (itemBit s.rxq.head) (s.setRxq (s.rxq.pop n))).1)
      (f.add (fcRxBit (itemBit s.rxq.head) (s.setRxq (s.rxq.pop n))).2)
      (by rw [hbuild]; exact hn) (by rw [hrxq]; exact hq.pop) (by rw [hrxq, State.setRxq_rxq]; omega)
    rw [hrxq] at hrest
    rw [facDrain, if_pos hitem, hn, QueueRegs.items_pop hq hitem, List.map_cons, feedBits, hfed]
    exact hrest

/-- The flags gathered over a run of bits (46_facade.md R255, the loop's body). -/
theorem DecFlags.foldl_add (rs : List RxFlags) (f : DecFlags) :
    rs.foldl DecFlags.add f = { f with
      frameOk := f.frameOk || rs.any fun q => q.frameOk
      msgDropped := f.msgDropped || rs.any fun q => q.msgDropped
      crcMismatch := f.crcMismatch || rs.any fun q => q.crcMismatch
      oversize := f.oversize || rs.any fun q => q.oversize } := by
  induction rs generalizing f with
  | nil => simp
  | cons r rs ih => rw [List.foldl_cons, ih]; simp [DecFlags.add, Bool.or_assoc]

/-- One sample keeps RXQ's cursors in range (42_demodulator.md R150). -/
theorem dmProcess_queueInv {s : State} (x : Int) (hq : QueueInv s.build.rxqN s.rxq) :
    QueueInv (dmProcess x s).1.build.rxqN (dmProcess x s).1.rxq := by
  have hsampled : QueueInv (s.sampled x).build.rxqN (s.sampled x).rxq := by rw [State.sampled_eq]; exact hq
  rw [dmProcess_eq]
  split
  · generalize s.sampled x = m at hsampled ⊢
    unfold dmOnTransition
    dsimp only
    split_ifs
    · exact hsampled.push _
    · exact hsampled
    · exact hsampled
  · exact hsampled

end Sys2Proof.Machine

namespace Sys2Proof.Proofs

open Sys2Proof.Machine

/-- Settles O53: the preamble, the frame and the postamble are one run of symbols into the emptied TXQ. -/
theorem encodeMessageQueuesTheTransmission : Obligations.EncodeMessageQueuesTheTransmission := by
  refine fun s d syms hq hsyms => ⟨decode_cmdWord rfl fun _ => rfl, ?_⟩
  obtain ⟨q, hencode, hinv, hitems⟩ := facEncodeMessage_queued hq rfl (syms := syms) hsyms
  exact ⟨q, congrArg finish hencode, hinv, hitems⟩

/-- Settles O54: draining RXQ feeds its items to FC.RX_BIT in order. -/
theorem decodeSampleDrainsTheReceiveQueue : Obligations.DecodeSampleDrainsTheReceiveQueue := by
  refine ⟨fun d => decode_cmdWord rfl fun _ => rfl, fun s m f x t rs hq hm ht => ?_⟩
  have hinv := dmProcess_queueInv (operandSample s.build x) hq
  rw [← hm] at hinv
  have hdrain := facDrain_eq_feedBits { pushed := f.pushed, sym := f.sym, dropped := f.dropped } rfl hinv rfl
  have hrxq := feedBits_rxq (m.setRxq { m.rxq with get := m.rxq.put }) ((m.rxq.items m.build.rxqN).map itemBit)
  rw [← ht] at hdrain hrxq
  refine ⟨?_, ?_, hrxq, ?_⟩
  · rw [exec_dmProcessSample_eq, ← hm]
  · have hexec : exec (.facDecodeProcessSample x) s =
        finish (facDecodeProcessSample (operandSample s.build x) s) := rfl
    rw [hexec, facDecodeProcessSample, ← hm]
    dsimp only
    rw [hdrain, Prod.map_apply, DecFlags.foldl_add]
    rfl
  · rw [hrxq]
    exact QueueRegs.items_get_put _ _

/-- Settles O51, by whether the configuration is valid. -/
theorem facadeSetupConfiguresEveryUnit : Obligations.FacadeSetupConfiguresEveryUnit := by
  rintro s d _ rfl
  exact ⟨decode_cmdWord rfl fun _ => rfl,
    fun hinvalid => congrArg finish (facSetup_invalid (Bool.eq_false_iff.1 hinvalid)), CfgRegs.valid_iff s.cfg,
    fun hvalid => congrArg finish (facSetup_loads hvalid)⟩

/-- Settles O55, by whether a message is pending and the index lies inside it. -/
theorem pendingMessageCommands : Obligations.PendingMessageCommands := by
  refine fun s d => ⟨decode_cmdWord rfl fun _ => rfl, decode_cmdWord rfl fun _ => rfl, decode_cmdWord rfl fun _ => rfl,
    fun hpend => ?_, fun hnone => ?_, rfl, fun k hpend hk => congrArg finish (facRxmsgRead_inside hpend hk),
    fun k houtside => congrArg finish (facRxmsgRead_outside houtside)⟩
  · rw [exec, execFacDecodeGetMessage, hpend]
    rfl
  · rw [exec, execFacDecodeGetMessage, hnone]
    rfl

/-- Settles O56, by whether the staging buffer is full. -/
theorem stagingBufferCommands : Obligations.StagingBufferCommands := by
  refine fun s d b => ⟨decode_cmdWord rfl fun _ => rfl, decode_cmdWord rfl fun _ => rfl, rfl,
    fun hfull => congrArg finish (facTxbufPush_full b hfull), fun hroom hwf => ?_⟩
  exact ⟨_, congrArg finish (facTxbufPush_room b hroom), Memory.read_write_same hwf _ _,
    fun k hk => Memory.read_write_other _ _ hk⟩

end Sys2Proof.Proofs
end

section
/-! CERTIFICATE. What a step can fault on (60_exceptions.md R303): a command goes on exactly when its queue precondition holds,
and one that does not go on is a direct PUT on a full queue or a direct GET on an empty one. -/

namespace Sys2Proof.Machine

section
variable {i : Instr} {s : State}

/-- A command that meets its queue precondition goes on (60_exceptions.md R300, R303). -/
theorem goesOn_exec_of_queueReady (hready : queueReady i s = true) : goesOn (exec i s) := by
  obtain ⟨t, r, hexec, -, -⟩ := exec_ends hready
  exact ⟨t.reply r, hexec⟩

/-- `i` is a direct PUT and its queue is full (40_queue.md R102). -/
def PutsOnFull (i : Instr) (s : State) : Prop :=
  ((∃ d, i = .txqPut d) ∧ (s.txq.put + 1) % s.build.txqN = s.txq.get) ∨
  ((∃ d, i = .rxqPut d) ∧ (s.rxq.put + 1) % s.build.rxqN = s.rxq.get)

/-- `i` is a direct GET and its queue is empty (40_queue.md R104). -/
def GetsFromEmpty (i : Instr) (s : State) : Prop :=
  (i = .txqGet ∧ s.txq.put = s.txq.get) ∨ (i = .rxqGet ∧ s.rxq.put = s.rxq.get)

theorem exec_of_putsOnFull (h : PutsOnFull i s) : exec i s = .fault (.queuePutFull s.cmdReg s.serving) := by
  rcases h with ⟨⟨d, rfl⟩, hfull⟩ | ⟨⟨d, rfl⟩, hfull⟩
  · exact queuePut_full .tx _ hfull
  · exact queuePut_full .rx _ hfull

theorem exec_of_getsFromEmpty (h : GetsFromEmpty i s) : exec i s = .fault (.queueGetEmpty s.cmdReg s.serving) := by
  rcases h with ⟨rfl, hempty⟩ | ⟨rfl, hempty⟩
  · exact queueGet_empty .tx hempty
  · exact queueGet_empty .rx hempty

/-- Only the four direct queue commands have a precondition, and it fails only on a full or an empty queue
(70_reset_and_hazards.md R335). -/
theorem putsOnFull_or_getsFromEmpty (hready : queueReady i s ≠ true) : PutsOnFull i s ∨ GetsFromEmpty i s := by
  cases i with
  | txqPut d => exact .inl (.inl ⟨⟨d, rfl⟩, not_not.1 (mt (QueueRegs.canPut_iff _ _).2 hready)⟩)
  | rxqPut d => exact .inl (.inr ⟨⟨d, rfl⟩, not_not.1 (mt (QueueRegs.canPut_iff _ _).2 hready)⟩)
  | txqGet => exact .inr (.inl ⟨rfl, not_not.1 (mt (QueueRegs.canGet_iff _).2 hready)⟩)
  | rxqGet => exact .inr (.inr ⟨rfl, not_not.1 (mt (QueueRegs.canGet_iff _).2 hready)⟩)
  | _ => exact absurd rfl hready

/-- A command other than the four direct queue commands has no queue precondition. -/
theorem queueReady_of_not_direct (htxPut : ∀ d, i ≠ .txqPut d) (hrxPut : ∀ d, i ≠ .rxqPut d) (htxGet : i ≠ .txqGet)
    (hrxGet : i ≠ .rxqGet) : queueReady i s = true := by
  by_contra hready
  rcases putsOnFull_or_getsFromEmpty hready with (⟨⟨d, hi⟩, -⟩ | ⟨⟨d, hi⟩, -⟩) | (⟨hi, -⟩ | ⟨hi, -⟩)
  · exact htxPut d hi
  · exact hrxPut d hi
  · exact htxGet hi
  · exact hrxGet hi

/-- In a build that 00_scope.md R9 allows, a step that does not go on took a command whose precondition fails. -/
theorem step_not_goesOn (hb : s.build.valid = true) (hstop : ¬ goesOn (step s)) :
    ∃ p order i, s.resetIn = .off ∧ s.nextPort = some (p, order) ∧ decode ((s.port p).pending.headD 0) = .ok i ∧
      step s = exec i (s.accept p order) ∧ queueReady i (s.accept p order) ≠ true := by
  rcases step_cases s with ⟨hinvalid, -⟩ | ⟨-, -, hs⟩ | ⟨-, -, hs⟩ | ⟨-, -, -, hs⟩ | ⟨p, order, -, hr, hn, hs⟩
  · exact absurd hb (Bool.eq_false_iff.1 hinvalid)
  · exact absurd ⟨_, hs⟩ hstop
  · exact absurd ⟨_, hs⟩ hstop
  · exact absurd ⟨_, hs⟩ hstop
  · rcases runCommand_cases (s.accept p order) with ⟨i, hdecode, hrun⟩ | ⟨e, -, hrun⟩
    · have hexec : step s = exec i (s.accept p order) := hs.trans hrun
      exact ⟨p, order, i, hr, hn, hdecode, hexec, fun hready => hstop (hexec ▸ goesOn_exec_of_queueReady hready)⟩
    · exact absurd ⟨_, hs.trans hrun⟩ hstop

end

end Sys2Proof.Machine

namespace Sys2Proof.Proofs

open Sys2Proof.Machine

/-- Settles O12: a command goes on or breaks its queue precondition, and a step stops only at a command that breaks its own. -/
theorem onlyUncheckedQueueCommandsFault : Obligations.OnlyUncheckedQueueCommandsFault := by
  refine ⟨fun _ d h => exec_of_putsOnFull (.inl ⟨⟨d, rfl⟩, h⟩), fun _ d h => exec_of_putsOnFull (.inr ⟨⟨d, rfl⟩, h⟩),
    fun _ h => exec_of_getsFromEmpty (.inl ⟨rfl, h⟩), fun _ h => exec_of_getsFromEmpty (.inr ⟨rfl, h⟩),
    fun _ _ h => goesOn_exec_of_queueReady ((QueueRegs.canPut_iff _ _).2 h),
    fun _ _ h => goesOn_exec_of_queueReady ((QueueRegs.canPut_iff _ _).2 h),
    fun _ h => goesOn_exec_of_queueReady ((QueueRegs.canGet_iff _).2 h),
    fun _ h => goesOn_exec_of_queueReady ((QueueRegs.canGet_iff _).2 h),
    fun _ _ htxPut hrxPut htxGet hrxGet =>
      goesOn_exec_of_queueReady (queueReady_of_not_direct htxPut hrxPut htxGet hrxGet),
    fun s hb hstop => ?_, fun _ _ => ⟨rfl, rfl⟩⟩
  obtain ⟨p, order, i, hr, hn, hdecode, hstep, hready⟩ := step_not_goesOn hb hstop
  refine ⟨p, order, _, hr, hn, rfl, ?_⟩
  simp only [hdecode, Except.ok.injEq]
  exact (putsOnFull_or_getsFromEmpty hready).imp (fun h => ⟨hstep.trans (exec_of_putsOnFull h), h⟩)
    fun h => ⟨hstep.trans (exec_of_getsFromEmpty h), h⟩

end Sys2Proof.Proofs
end

section
/-! CERTIFICATE. A pending message (70_reset_and_hazards.md R338, 46_facade.md R263): while one is pending the receive parser leaves
the facade's registers as they are, and of the commands FAC.DECODE_CLEAR_MESSAGE and FAC.SETUP alone touch the message. -/

namespace Sys2Proof.Machine

/-! ### The receive parser while a message is pending -/

theorem fcStore_fac (b : BitVec 8) (s : State) : (fcStore b s).1.fac = s.fac := by rw [fcStore_frame]

section
variable {s : State} (hpending : s.fac.pendValid = true)
include hpending

/-- A boundary drops its frame (46_facade.md R263). -/
theorem fcBoundary_fac_of_pending : (fcBoundary s).1.fac = s.fac := by
  rcases lt_or_ge s.fc.pos 2 with hshort | hpos
  · rw [fcBoundary_of_short hshort]; rfl
  · by_cases hcrc : s.fc.receivedCrc = s.fc.rxCrc
    · rw [fcBoundary_of_match_pending hpos hcrc hpending]; rfl
    · rw [fcBoundary_of_mismatch hpos hcrc]; rfl

theorem fcRxByte_fac_of_pending (b : BitVec 8) : (fcRxByte b s).1.fac = s.fac := by
  unfold fcRxByte
  split_ifs
  · exact fcBoundary_fac_of_pending hpending
  · rfl
  · rfl
  · exact fcStore_fac _ _
  · exact fcStore_fac _ _

theorem fcRxBit_fac_of_pending (bit : Bool) : (fcRxBit bit s).1.fac = s.fac := by
  have hoctet (b : BitVec 8) : (fcRxByte b (s.shiftIn bit)).1.fac = s.fac :=
    fcRxByte_fac_of_pending (s := s.shiftIn bit) hpending b
  rw [fcRxBit_eq]
  split_ifs
  · exact hoctet flagOctet
  · rfl
  · exact hoctet (shiftInBit bit s.fc.acc)
  · rfl

theorem facDrain_fac_of_pending (k : Nat) (f : DecFlags) : (facDrain k s f).1.fac = s.fac := by
  induction k generalizing s f with
  | zero => rfl
  | succ k ih =>
    unfold facDrain
    split_ifs
    · have hbit := fcRxBit_fac_of_pending (s := s.setRxq (s.rxq.pop s.build.rxqN)) hpending (itemBit s.rxq.head)
      exact (ih (hbit.symm ▸ hpending) _).trans hbit
    · rfl

theorem facDecodeProcessSample_fac_of_pending (x : Int) : (facDecodeProcessSample x s).1.fac = s.fac := by
  have hsample : (dmProcess x s).1.fac = s.fac := by rw [dmProcess_frame]
  exact (facDrain_fac_of_pending (hsample.symm ▸ hpending) _ _).trans hsample

end

/-! ### The message under every command -/

/-- Whether a message is pending, its length and the bytes it lies in (10_state.md R31). -/
def FacRegs.message (f : FacRegs) : Bool × Nat × List Host.Cell := (f.pendValid, f.pendLen, f.pend)

/-- Whatever a command's outcome is, a next state has the message of `s`. -/
def LeavesMessage (s : State) (o : Host.Outcome State Fault Refusal) : Prop :=
  ∀ t, o = .next t → t.fac.message = s.fac.message

section
variable {s : State}

theorem leavesMessage_finish {r : State × Resp} (h : r.1.fac.message = s.fac.message) : LeavesMessage s (finish r) := by
  rintro t ⟨⟩
  exact h

theorem leavesMessage_readOnly {i : Instr} (h : isReadOnly i = true) : LeavesMessage s (exec i s) := by
  obtain ⟨op, hop, hexec⟩ := exec_of_isReadOnly h
  rw [hexec]
  exact leavesMessage_finish (by rw [hop.keeps])

/-- The message is no part of the transmit path (46_facade.md R265). -/
theorem leavesMessage_transmit {i : Instr} (hi : isTransmit i = true) : LeavesMessage s (exec i s) := by
  intro t hexec
  obtain ⟨u, r, -, -, hall⟩ := exec_transmit hi hexec
  obtain ⟨c, hself⟩ := hall s ⟨rfl, rfl, rfl⟩
  cases hexec.symm.trans hself
  rfl

theorem crSetup_message : (crSetup s).1.fac.message = s.fac.message := by
  unfold crSetup
  split <;> rfl

theorem dmSetup_message : (dmSetup s).1.fac.message = s.fac.message := by
  by_cases hvalid : s.cfg.valid = true
  · rw [dmSetup_loads hvalid]; rfl
  · rw [dmSetup_invalid hvalid]; rfl

/-- Every command but FAC.DECODE_CLEAR_MESSAGE and FAC.SETUP leaves a pending message (70_reset_and_hazards.md R338). -/
theorem leavesMessage_exec {i : Instr} (hpending : s.fac.pendValid = true) (hclear : i ≠ .facDecodeClearMessage)
    (hsetup : i ≠ .facSetup) : LeavesMessage s (exec i s) := by
  cases i with
  | facDecodeClearMessage => exact absurd rfl hclear
  | facSetup => exact absurd rfl hsetup
  | facNop | facDecodeGetMessage | facRxmsgRead _ | facCfgRead _ | crcRead | crcTableRead _
  | rxqCanPut | rxqCanGet | rxqCount | rxqNthFromPut _ | rxqNthFromGet _ => exact leavesMessage_readOnly rfl
  | facEncodeMessage | facEncodeGetSample | facTxbufClear | facTxbufPush _
  | mdSetup | mdClear | mdSetPreamble _ | mdSetPostamble _ | mdAddPreamble | mdAddPostamble | mdAddSymbol _ | mdGetSample
  | fcSendFrameBytes | fcSendFrameBits
  | txqCanPut | txqPut _ | txqCanGet | txqGet | txqClear | txqCount | txqNthFromPut _ | txqNthFromGet _ =>
    exact leavesMessage_transmit rfl
  | dmClear | crClear | crTransition _ | fcSetup | fcClear | crcInit | crcUpdate _ | rxqClear =>
    exact leavesMessage_finish rfl
  | facDecodeProcessSample x =>
    exact leavesMessage_finish (congrArg FacRegs.message (facDecodeProcessSample_fac_of_pending hpending _))
  | facCfgWrite k v => exact leavesMessage_finish (by unfold facCfgWrite; split <;> rfl)
  | dmSetup => exact leavesMessage_finish dmSetup_message
  | dmProcessSample x => exact leavesMessage_finish (by rw [dmProcess_frame])
  | crSetup => exact leavesMessage_finish crSetup_message
  | fcRxByte b => exact leavesMessage_finish (congrArg FacRegs.message (fcRxByte_fac_of_pending hpending b))
  | fcRxBit bit => exact leavesMessage_finish (congrArg FacRegs.message (fcRxBit_fac_of_pending hpending bit))
  | rxqPut d =>
    intro t ht
    obtain ⟨-, rfl⟩ := queuePut_next ht
    rfl
  | rxqGet =>
    intro t ht
    obtain ⟨-, rfl⟩ := queueGet_next ht
    rfl

/-- A command that ends a pending message is one of the two. -/
theorem eq_of_ends_message {i : Instr} {t : State} (hexec : exec i s = .next t) (hpending : s.fac.pendValid = true)
    (hended : t.fac.pendValid = false) : i = .facDecodeClearMessage ∨ i = .facSetup := by
  by_contra hother
  obtain ⟨hclear, hsetup⟩ := not_or.1 hother
  have hkept : t.fac.pendValid = s.fac.pendValid :=
    congrArg Prod.fst (leavesMessage_exec hpending hclear hsetup t hexec)
  rw [hended, hpending] at hkept
  cases hkept

/-- With the reset input off, a step that ends a pending message ran a command on it. -/
theorem step_ends_message {t : State} (hstep : step s = .next t) (hr : s.resetIn = .off)
    (hpending : s.fac.pendValid = true) (hended : t.fac.pendValid = false) :
    ∃ p order i, s.nextPort = some (p, order) ∧ decode ((s.port p).pending.headD 0) = .ok i ∧
      exec i (s.accept p order) = .next t := by
  have hchanged : t.fac ≠ s.fac := fun h => absurd (h ▸ hended) (by rw [hpending]; decide)
  rcases step_cases s with ⟨-, hs⟩ | ⟨-, hr', -⟩ | ⟨-, hr', -⟩ | ⟨-, -, -, hs⟩ | ⟨p, order, -, -, hn, hs⟩
  · cases hstep.symm.trans hs
  · cases hr.symm.trans hr'
  · cases hr.symm.trans hr'
  · cases hstep.symm.trans hs
    exact absurd rfl hchanged
  · rcases runCommand_cases (s.accept p order) with ⟨i, hdecode, hrun⟩ | ⟨e, -, hrun⟩
    · exact ⟨p, order, i, hn, hdecode, hrun.symm.trans (hs.symm.trans hstep)⟩
    · cases hstep.symm.trans (hs.trans hrun)
      exact absurd rfl hchanged

end

end Sys2Proof.Machine

namespace Sys2Proof.Proofs

open Sys2Proof.Machine

/-- Settles O58: a command other than the two leaves the message, so a step that ends it ran one of them. -/
theorem pendingMessageIsKept : Obligations.PendingMessageIsKept := by
  refine ⟨fun i s t hexec hpending hclear hsetup => ?_, fun s t hstep hr hpending hended => ?_⟩
  · have hmessage := leavesMessage_exec hpending hclear hsetup t hexec
    simp only [FacRegs.message, Prod.mk.injEq] at hmessage
    obtain ⟨hvalid, hlen, hbytes⟩ := hmessage
    exact ⟨hvalid.trans hpending, hlen, hbytes⟩
  · obtain ⟨p, order, i, hn, hdecode, hexec⟩ := step_ends_message hstep hr hpending hended
    refine ⟨p, order, hn, ?_⟩
    simp only [hdecode, Except.ok.injEq]
    exact eq_of_ends_message hexec hpending hended

end Sys2Proof.Proofs
end

section
/-! CERTIFICATE. The reset state (70_reset_and_hazards.md R330 to R332): its register values, the reset input that leads to it, and
the configuration sequence that reaches it in every register. -/

namespace Sys2Proof.Machine

/-! ### The reset input (70_reset_and_hazards.md R331) -/

section
variable {s : State}

theorem step_reset_between (hb : s.build.valid = true) (hr : s.resetIn = .betweenCommands) :
    step s = .next s.applyReset := by
  rw [step, if_pos hb, hr]

theorem step_reset_during (hb : s.build.valid = true) (hr : s.resetIn = .duringCommand) :
    step s = .next s.abandon.applyReset := by
  rw [step, if_pos hb, hr]

/-- With no command pending there is none to abandon. -/
theorem State.abandon_idle (hn : s.nextPort = none) : s.abandon = s := by
  rw [State.abandon, hn]

/-- The command in progress has left its port (93_implementation_defined.md U13). -/
theorem State.abandon_serving {p : Port} {order : List Port} (hn : s.nextPort = some (p, order)) :
    s.abandon = s.accept p order := by
  rw [State.abandon, hn]

theorem State.applyReset_sameBlock (s : State) : SameBlock (State.resetOf s.build) s.applyReset :=
  ⟨rfl, rfl, rfl, rfl, rfl, rfl, rfl, rfl, rfl, rfl, rfl, rfl⟩

theorem State.applyReset_port (s : State) (q : Port) : s.applyReset.port q = s.port q := by
  cases q <;> rfl

end

/-! ### The configuration sequence (70_reset_and_hazards.md R332) -/

theorem SameBlock.trans {s t u : State} (h : SameBlock s t) (h' : SameBlock t u) : SameBlock s u := by
  unfold SameBlock at *
  simp [h, h']

/-- A response goes to a port and leaves the block (60_exceptions.md R306). -/
theorem State.reply_sameBlock (s : State) (r : Resp) : SameBlock s (s.reply r) :=
  ⟨rfl, rfl, rfl, rfl, rfl, rfl, rfl, rfl, rfl, rfl, rfl, rfl⟩

/-- CFG after FAC.CFG_WRITE of one setting, the index and the value (46_facade.md R261). -/
def CfgRegs.writeSetting (c : CfgRegs) (kv : Int × Int) : CfgRegs :=
  c.write (BitVec.ofInt 8 kv.1).toNat (BitVec.ofInt 32 kv.2 &&& cfgMask (BitVec.ofInt 8 kv.1).toNat)

/-- The nine settings of `CFG_DEFAULTS` leave nothing of CFG as it was (30_encoding.md R90, 10_state.md R21). -/
theorem CfgRegs.foldl_cfgDefaults (c : CfgRegs) : cfgDefaults.foldl CfgRegs.writeSetting c = CfgRegs.reset := rfl

/-- A run of FAC.CFG_WRITE changes CFG and the ports alone. -/
theorem execAll_facCfgWrite (settings : List (Int × Int)) (hlegal : ∀ kv ∈ settings, (BitVec.ofInt 8 kv.1).toNat < 9)
    (s : State) :
    ∃ t, execAll (settings.map fun kv => .facCfgWrite (BitVec.ofInt 8 kv.1) (BitVec.ofInt 32 kv.2)) s = .next t ∧
      SameBlock (s.setCfg (settings.foldl CfgRegs.writeSetting s.cfg)) t := by
  induction settings generalizing s with
  | nil => exact ⟨s, rfl, rfl, rfl, rfl, rfl, rfl, rfl, rfl, rfl, rfl, rfl, rfl, rfl⟩
  | cons kv settings ih =>
    obtain ⟨hkv, hrest⟩ := List.forall_mem_cons.1 hlegal
    have hwrite : exec (.facCfgWrite (BitVec.ofInt 8 kv.1) (BitVec.ofInt 32 kv.2)) s =
        .next ((s.setCfg (s.cfg.writeSetting kv)).reply (respond true 0)) :=
      congrArg finish (facCfgWrite_legal hkv _ s)
    obtain ⟨t, hrun, hblock⟩ := ih hrest ((s.setCfg (s.cfg.writeSetting kv)).reply (respond true 0))
    refine ⟨t, ?_, hblock⟩
    rw [List.map_cons, execAll, hwrite]
    exact hrun

/-- FAC.SETUP with CFG at its reset values loads every unit's reset values; the memories keep what they hold
(46_facade.md R252). -/
theorem facSetup_of_cfg_reset {s : State} (h : s.cfg = CfgRegs.reset) :
    facSetup s = ({ s with
      md := MdRegs.reset
      txq := ⟨0, 0, s.txq.slot⟩
      dm := DmRegs.reset s.build.majW
      cr := CrRegs.reset
      rxq := ⟨0, 0, s.rxq.slot⟩
      fc := { FcRegs.reset with buf := s.fc.buf }
      fac := { FacRegs.reset with txbuf := s.fac.txbuf, pend := s.fac.pend } }, respond true 0) := by
  have hvalid : s.cfg.valid = true := by rw [h]; decide
  rw [facSetup_loads hvalid, h]
  rfl

/-- FAC.SETUP and then CRC.INIT: what FAC.SETUP leaves, with `CRC.acc` at `CRC_INIT` (44_crc16.md R202). -/
theorem execAll_facSetup_crcInit (s : State) :
    ∃ t, execAll [.facSetup, .crcInit] s = .next t ∧
      SameBlock ((facSetup s).1.setCrcAcc (facSetup s).1.build.crcInit) t :=
  ⟨_, rfl, State.reply_sameBlock (((facSetup s).1.reply (facSetup s).2).setCrcAcc _) (respond true 0)⟩

end Sys2Proof.Machine

namespace Sys2Proof.Proofs

open Sys2Proof.Machine

/-- Settles O7, by whether a command is in progress when the reset input is asserted. -/
theorem resetInputReachesResetState : Obligations.ResetInputReachesResetState := by
  refine fun s hb => ⟨fun hr => ?_, fun hr hn => ?_, fun p order hr hn => ?_⟩
  · exact ⟨_, step_reset_between hb hr, s.applyReset_sameBlock, rfl, rfl, rfl⟩
  · refine ⟨_, step_reset_during hb hr, ?_⟩
    rw [State.abandon_idle hn]
    exact ⟨s.applyReset_sameBlock, rfl, rfl, rfl⟩
  · refine ⟨_, step_reset_during hb hr, ?_⟩
    rw [State.abandon_serving hn]
    refine ⟨(s.accept p order).applyReset_sameBlock, ?_, fun q hq => ?_, rfl⟩
    · rw [State.applyReset_port, State.accept_port_same]
    · rw [State.applyReset_port, State.accept_port_other s p order hq]

/-- Settles O8, register by register. -/
theorem resetStateValues : Obligations.ResetStateValues := by
  unfold Obligations.ResetStateValues
  and_intros <;> rfl

/-- Settles O52: the writes leave CFG at its reset values, from which FAC.SETUP loads every unit, and CRC.INIT the CRC. -/
theorem setupSequenceReachesResetState : Obligations.SetupSequenceReachesResetState := by
  intro s
  obtain ⟨t, hwrites, hconfigured⟩ := execAll_facCfgWrite cfgDefaults (by decide) s
  obtain ⟨u, hunits, hloaded⟩ := execAll_facSetup_crcInit t
  rw [CfgRegs.foldl_cfgDefaults] at hconfigured
  obtain ⟨hbuild, hcfg, htxq, hrxq, -, -, -, -, hfc, hfac, hout, htrace⟩ := hconfigured
  rw [facSetup_of_cfg_reset hcfg] at hloaded
  refine ⟨u, ?_, SameBlock.trans ?_ hloaded⟩
  · rw [cfgDefaultsProgram, List.append_assoc, execAll_append hwrites]
    exact hunits
  refine ⟨hbuild, hcfg, ?_, ?_, rfl, ?_, rfl, ?_, ?_, ?_, hout, htrace⟩
  · exact congrArg (fun q : QueueRegs => (⟨0, 0, q.slot⟩ : QueueRegs)) htxq
  · exact congrArg (fun q : QueueRegs => (⟨0, 0, q.slot⟩ : QueueRegs)) hrxq
  · exact congrArg (fun b : Build => DmRegs.reset b.majW) hbuild
  · exact congrArg Build.crcInit hbuild
  · exact congrArg (fun f : FcRegs => { FcRegs.reset with buf := f.buf }) hfc
  · exact congrArg (fun f : FacRegs => { FacRegs.reset with txbuf := f.txbuf, pend := f.pend }) hfac

end Sys2Proof.Proofs
end
